-- ==== Sys2Proof/Word.lean ====
section
/-! DEFINITION. The words the C410 sends and receives: bytes, and ASCII text as a list of bytes (R157, R211). -/

namespace Sys2Proof

/-- One character or frame byte of a serial line: 8 data bits (R157). -/
abbrev Byte := BitVec 8

/-- ASCII text, first character first. -/
abbrev Text := List Byte

/-- The bytes of an ASCII literal. -/
def ascii (s : String) : Text := s.toList.map fun c => BitVec.ofNat 8 c.toNat

end Sys2Proof
end

