-- ==== Sys2Proof/Syntax.lean ====
section
/-! DEFINITION. The commands of the block: one constructor of `Instr` for each row of spec/opcode_table.json,
with the operands the row's rule gives it. -/

namespace Sys2Proof

/-- The four receive channels RC0 to RC3. -/
inductive Chan where
  | rc0 | rc1 | rc2 | rc3
  deriving DecidableEq, Repr, Inhabited

/-- The three command lines A, B and C. -/
inductive LineId where
  | a | b | c
  deriving DecidableEq, Repr, Inhabited

/-- What an estimator gives for one sample (R1): an instantaneous frequency in hertz and an envelope. -/
structure Sample where
  freq : Nat
  env : Nat
  deriving DecidableEq, Repr, Inhabited

/-- One value for each receive channel. -/
structure Quad (α : Type) where
  c0 : α
  c1 : α
  c2 : α
  c3 : α
  deriving DecidableEq, Repr

/-- One value for each command line. -/
structure Triple (α : Type) where
  la : α
  lb : α
  lc : α
  deriving DecidableEq, Repr

/-- The steps of the C410, each whole and indivisible (spec/95_what_each_step_holds.md).
A text command carries the line on which it is taken and its arguments as R160 cuts them: folded to upper case,
with the spaces around each comma gone. A step that takes a message in flight names the block (or the reception,
or the directory entry) the message belongs to; the message itself is in the state. -/
inductive Instr where
  -- power and reset
  | powerOn
  | resetInput
  | deviceReset
  | resetComplete
  -- receive channels, phasing, receptions
  | sampleTick (heard : Quad Sample)
  | runDeadline (ch : Chan)
  | listenTimerExpiry (ch : Chan)
  | stateNotice (ch : Chan)
  | lockReport (ch : Chan)
  | lockedNotice (ch : Chan)
  | periodReport (ch : Chan)
  | firstRowAssignment (ch : Chan)
  | endOrder (ch : Chan)
  | endNotice (ch : Chan)
  | durationExpiry (reception : Nat)
  | tuneMessageSent (ch : Chan)
  -- line pool, assembler, sheet store
  | lineRecordOffer (ch : Chan)
  | assemblerTake
  | mergeRequest
  | linesStoredNotice (reception : Nat)
  | linesNotStoredNotice (reception : Nat)
  | unbind (entry : Nat)
  | newsNotice (l : LineId)
  | freedNotice (l : LineId)
  -- time and schedule
  | runSecond
  | minuteEvent
  | schedStoreComplete (agrees : Bool)
  -- command lines and transfers
  | characterReceived (l : LineId) (byte : Byte) (framingError : Bool)
  | breakSeen (l : LineId)
  | commandLineTake (l : LineId)
  | unknownCommand (l : LineId) (command : Text)
  | frameBoundary (l : LineId)
  | stall (l : LineId)
  | transferEnd (l : LineId)
  -- CHAN commands
  | chanTones (l : LineId) (args : List Text)
  | chanSense (l : LineId) (args : List Text)
  | chanSquelch (l : LineId) (args : List Text)
  | chanLost (l : LineId) (args : List Text)
  | chanLock (l : LineId) (args : List Text)
  | chanState (l : LineId) (args : List Text)
  | chanAbort (l : LineId) (args : List Text)
  -- SHEET commands
  | sheetDefine (l : LineId) (args : List Text)
  | sheetDelete (l : LineId) (args : List Text)
  | sheetDeleteAll (l : LineId) (args : List Text)
  | sheetKeep (l : LineId) (args : List Text)
  | sheetCatalog (l : LineId) (args : List Text)
  | sheetInfo (l : LineId) (args : List Text)
  | sheetFree (l : LineId) (args : List Text)
  | sheetSelect (l : LineId) (args : List Text)
  | sheetSelectQuery (l : LineId) (args : List Text)
  -- RECV commands
  | recvNow (l : LineId) (args : List Text)
  | recvStop (l : LineId) (args : List Text)
  | recvStatus (l : LineId) (args : List Text)
  | recvList (l : LineId) (args : List Text)
  -- SCHED, TIME and SYS.UPTIME? commands
  | schedAdd (l : LineId) (args : List Text)
  | schedDel (l : LineId) (args : List Text)
  | schedOn (l : LineId) (args : List Text)
  | schedOff (l : LineId) (args : List Text)
  | schedList (l : LineId) (args : List Text)
  | schedRun (l : LineId) (args : List Text)
  | schedStore (l : LineId) (args : List Text)
  | timeSet (l : LineId) (args : List Text)
  | timeQuery (l : LineId) (args : List Text)
  | sysUptime (l : LineId) (args : List Text)
  -- EVENT and LINE commands
  | eventFlags (l : LineId) (args : List Text)
  | eventTake (l : LineId) (args : List Text)
  | eventClear (l : LineId) (args : List Text)
  | eventSet (l : LineId) (args : List Text)
  | eventEnable (l : LineId) (args : List Text)
  | eventDisable (l : LineId) (args : List Text)
  | lineFilter (l : LineId) (args : List Text)
  | lineNews (l : LineId) (args : List Text)
  | lineNewsDrop (l : LineId) (args : List Text)
  | lineAutotake (l : LineId) (args : List Text)
  -- SYS and ROWS commands
  | sysId (l : LineId) (args : List Text)
  | sysReset (l : LineId) (args : List Text)
  | rowsRead (l : LineId) (args : List Text)
  | rowsSince (l : LineId) (args : List Text)
  | rowsMap (l : LineId) (args : List Text)
  -- the outside
  | powerRemoved
  | returnToMarking (l : LineId)
  | resetInputReleased
  deriving DecidableEq, Repr

end Sys2Proof
end

