-- ==== Sys2Proof/WellFormed.lean ====
section
/-! DEFINITION. Which terms of `Instr` are commands the part can meet: operand ranges, and the form that R160
gives the text of a command and its arguments. -/

namespace Sys2Proof

/-- An estimator gives 0 to 4800 Hz and an envelope of 0 to 32767 (R1). -/
def Sample.wf (x : Sample) : Bool := decide (x.freq ≤ 4800) && decide (x.env ≤ 32767)

/-- Every channel's sample is one an estimator can give. -/
def Quad.samplesWf (q : Quad Sample) : Bool := q.c0.wf && q.c1.wf && q.c2.wf && q.c3.wf

/-- Receptions are numbered 0 to 255 (R112). -/
def receptionNumberWf (n : Nat) : Bool := decide (n ≤ 255)

/-- Directory entries are indexed 0 to 23 (R78). -/
def entryIndexWf (i : Nat) : Bool := decide (i ≤ 23)

/-- A byte that may stand in a command: not CR or LF, not ";", which cuts commands, and not one of the three
transfer control characters, which no command line ever holds (R157, R160). -/
def commandByteWf (b : Byte) : Bool :=
  b != 0x0D#8 && b != 0x0A#8 && b != 0x3B#8 && b != 0x11#8 && b != 0x13#8 && b != 0x18#8

/-- A byte of an argument: a command byte that is no comma and is folded to upper case (R160). -/
def argByteWf (b : Byte) : Bool :=
  commandByteWf b && b != 0x2C#8 && !(decide (0x61#8 ≤ b) && decide (b ≤ 0x7A#8))

/-- An argument has no space at either end (R160). -/
def argWf (t : Text) : Bool :=
  t.all argByteWf && (t.head? != some 0x20#8) && (t.getLast? != some 0x20#8)

/-- The arguments of one command fit a command line of 256 characters (R157). -/
def argsWf (args : List Text) : Bool :=
  args.all argWf && decide ((args.map List.length).sum + (args.length - 1) ≤ 256)

/-- The text of a command handed to judgment (R160). -/
def commandWf (t : Text) : Bool := t.all commandByteWf && decide (t.length ≤ 256)

/-- A well-formed command of the block. -/
def Instr.wf : Instr → Bool
  | .powerOn | .resetInput | .deviceReset | .resetComplete => true
  | .sampleTick q => q.samplesWf
  | .runDeadline _ | .listenTimerExpiry _ | .stateNotice _ | .lockReport _ | .lockedNotice _ => true
  | .periodReport _ | .firstRowAssignment _ | .endOrder _ | .endNotice _ => true
  | .durationExpiry n => receptionNumberWf n
  | .tuneMessageSent _ | .lineRecordOffer _ | .assemblerTake | .mergeRequest => true
  | .linesStoredNotice n => receptionNumberWf n
  | .linesNotStoredNotice n => receptionNumberWf n
  | .unbind i => entryIndexWf i
  | .newsNotice _ | .freedNotice _ | .runSecond | .minuteEvent | .schedStoreComplete _ => true
  | .characterReceived _ _ _ | .breakSeen _ | .commandLineTake _ => true
  | .unknownCommand _ t => commandWf t
  | .frameBoundary _ | .stall _ | .transferEnd _ => true
  | .chanTones _ as | .chanSense _ as | .chanSquelch _ as | .chanLost _ as | .chanLock _ as => argsWf as
  | .chanState _ as | .chanAbort _ as => argsWf as
  | .sheetDefine _ as | .sheetDelete _ as | .sheetDeleteAll _ as | .sheetKeep _ as => argsWf as
  | .sheetCatalog _ as | .sheetInfo _ as | .sheetFree _ as | .sheetSelect _ as => argsWf as
  | .sheetSelectQuery _ as => argsWf as
  | .recvNow _ as | .recvStop _ as | .recvStatus _ as | .recvList _ as => argsWf as
  | .schedAdd _ as | .schedDel _ as | .schedOn _ as | .schedOff _ as | .schedList _ as => argsWf as
  | .schedRun _ as | .schedStore _ as | .timeSet _ as | .timeQuery _ as | .sysUptime _ as => argsWf as
  | .eventFlags _ as | .eventTake _ as | .eventClear _ as | .eventSet _ as => argsWf as
  | .eventEnable _ as | .eventDisable _ as => argsWf as
  | .lineFilter _ as | .lineNews _ as | .lineNewsDrop _ as | .lineAutotake _ as => argsWf as
  | .sysId _ as | .sysReset _ as | .rowsRead _ as | .rowsSince _ as | .rowsMap _ as => argsWf as
  | .powerRemoved | .returnToMarking _ | .resetInputReleased => true

end Sys2Proof
end

