-- ==== Sys2Proof/Decode.lean ====
section
/-! DEFINITION. The opcode table gives no row any bits (its rows are events and text commands), so no word spells a
command. What this block decodes is text: R160's parse stands in Machine/Operands.lean. -/

namespace Sys2Proof

/-- The command a word spells by the table's bits: no row has bits, so none. -/
def decodeTableWord (_nbits _w : Nat) : Option Instr := none

end Sys2Proof
end

