-- ==== Sys2Proof/Config.lean ====
section
/-! DEFINITION. What the part fixes (the sizes and limits the rules state) and what the manual leaves open (the free
values, opaque constants nothing can evaluate). -/

namespace Sys2Proof.Config

/-! ### Sizes and limits the rules state -/

/-- Records the line pool holds at most (R57). -/
def poolSize : Nat := 32
/-- Entries of the sheet directory (R78). -/
def directorySize : Nat := 24
/-- Bands of the band pool (R85). -/
def bandCount : Nat := 512
/-- Rows of one band (R65). -/
def bandRows : Nat := 32
/-- Bytes of one band: 32 KiB (05_the_sheet_store.md). -/
def bandBytes : Nat := 32768
/-- Bytes of one row's place in a band, sized for 2048 elements of four bits (R65). -/
def bandRowBytes : Nat := 1024
/-- Records of the reception table (R110). -/
def receptionTableSize : Nat := 8
/-- Entries the schedule table holds at most (R138). -/
def scheduleSize : Nat := 32
/-- Characters of command text an input buffer holds at most (R157). -/
def bufferSize : Nat := 256
/-- Entries a news list holds at most (R174). -/
def newsSize : Nat := 8
/-- The value at which a 32-bit count stops (R69, R71). -/
def maxCount32 : Nat := 4294967295
/-- Samples of a pattern window (R6). -/
def windowSamples : Nat := 960
/-- Consecutive qualifying windows at which a pattern is heard (R6). -/
def windowsHeard : Nat := 30
/-- Samples in a second (R1). -/
def samplesPerSecond : Nat := 9600
/-- Fine units in a sample period (R1). -/
def fine : Nat := 256
/-- The single pause at which a transfer stalls: 10 seconds in character times of a line at 11,520 characters a
second (R198). -/
def singlePauseLimit : Nat := 115200
/-- The cumulative pause at which a transfer stalls: 60 seconds in character times (R198). -/
def cumulativePauseLimit : Nat := 691200

/-! ### Free values -/

/-- FREE VALUE (log entry 10): the sample a channel finds for a sample index it no longer keeps or never heard. -/
opaque unheardSample : Nat → Nat → Sample

/-- FREE VALUE (log entry 26): what fixes the part's firmware level. -/
opaque firmwareSeed : Nat

/-- The firmware level, a whole number from 1 to 999 fixed in the part (R184). -/
def firmwareLevel : Nat := 1 + firmwareSeed % 999

end Sys2Proof.Config
end

