-- ==== Sys2Proof/Machine/State.lean ====
section
/-! DEFINITION. Everything the C410 holds, as plain data, and the state after reset. -/

namespace Sys2Proof.Machine

/-! ### Outcomes -/

/-- Why the block stops with a fault: it never does. No row of the table stops the part, so the type has no
constructor (log entry 33). -/
inductive Fault where
  deriving DecidableEq, Repr

/-- Why the model gives a command no meaning. -/
inductive Refusal where
  /-- Raised by `exec`'s arm for a row without a meaning; no arm raises it now. Safe: the model stops. -/
  | notModelled (mnemonic : String)
  deriving DecidableEq, Repr

/-! ### Memory of the band pool -/

/-- The stacked DRAM of the band pool: the listed bytes by address, addresses strictly rising (R85; log entry 25). -/
abbrev Memory := List Host.Cell

/-- What a byte no cell lists reads as: two elements of gray 15, white (R67; log entry 25). -/
def Memory.blank : Byte := 0xFF#8

/-- The canonical form: addresses strictly rising, and no cell equal to what an unlisted address reads as. -/
abbrev Memory.wf (m : Memory) : Prop :=
  List.Pairwise (fun x y => x.1 < y.1) m ∧ ∀ c ∈ m, c.2 ≠ Memory.blank

/-! ### Receive channels (01_receive_channels.md) -/

/-- A channel's sense (R22). -/
inductive Sense where
  | norm | inv
  deriving DecidableEq, Repr

/-- The six settings of a channel (R2). -/
structure ChanConfig where
  black : Nat
  white : Nat
  sense : Sense
  squelch : Nat
  lost : Nat
  lock : Nat
  deriving DecidableEq, Repr

/-- The states of a member channel; a channel without a membership is IDLE (R3). -/
inductive Phase where
  | listening | collecting | locked | imaging
  deriving DecidableEq, Repr

/-- How a member hears one sample (R4). -/
inductive Tone where
  | white | black | neither
  deriving DecidableEq, Repr

/-- What the detectors of a member hold (R5, R6). -/
structure Detector where
  /-- The judgment of the sample before, absent at joining. -/
  last : Option Tone
  /-- The nearest earlier judgment that was white or black. -/
  lastClear : Option Tone
  /-- The position at which the present white run began. -/
  whiteFrom : Option Nat
  /-- The sample index at which the first window the member counts begins. -/
  firstWindow : Nat
  /-- The changes counted in the present window. -/
  changes : Nat
  /-- The sum of the envelopes of the present window. -/
  windowSum : Nat
  /-- Consecutive windows that qualified for the opening pattern. -/
  opening : Nat
  /-- Consecutive windows that qualified for the closing pattern. -/
  closing : Nat
  deriving DecidableEq, Repr

/-- The line timing a member was told by the LOCKED notice (R31), and the period its next report covers (R12). -/
structure MemberTiming where
  ref : Nat
  peff : Nat
  period : Nat
  deriving DecidableEq, Repr

/-- A channel's membership of a reception: what it holds outside IDLE (R3, R8). -/
structure Membership where
  reception : Nat
  lpm : Nat
  width : Nat
  height : Nat
  listenLimit : Nat
  phase : Phase
  /-- The marker run, E_1 first (R9). -/
  run : List Nat
  /-- The sample index at which the listen timer expires; absent while it is stopped (R17). -/
  listen : Option Nat
  /-- The lost-line count (R15). -/
  lost : Nat
  /-- Absent while the reception is UNTIMED as far as the member has been told (R9, R11). -/
  timing : Option MemberTiming
  /-- The current row, in IMAGING (R13). -/
  row : Nat
  /-- The start of the current row in fine units, in IMAGING (R39). -/
  rowStart : Nat
  det : Detector
  /-- Positions of the markers found since the LOCKED notice that a report may yet need (R12). -/
  markers : List Nat
  /-- Last samples of the qualifying windows that a report may yet need (R6). -/
  toneEnds : List Nat
  /-- The kept samples, newest first: the newest is the sample before the sample clock (R1). -/
  kept : List Sample
  deriving DecidableEq, Repr

/-- The end causes (R18). -/
inductive EndCause where
  | closed | silent | faded | full | expired | aborted
  deriving DecidableEq, Repr

/-- The state mirror of a member entry (R113). -/
inductive Mirror where
  | listening | phasing | locked | imaging | ended
  deriving DecidableEq, Repr

/-- A line record (R55). -/
structure LineRecord where
  chan : Chan
  reception : Nat
  row : Nat
  width : Nat
  grays : List Nat
  quals : List Nat
  deriving DecidableEq, Repr

/-- A state notice in flight to the manager (R113). -/
structure StateNotice where
  reception : Nat
  mirror : Mirror
  deriving DecidableEq, Repr

/-- A lock report in flight to the manager (R10). -/
structure LockReport where
  reception : Nat
  run : List Nat
  deriving DecidableEq, Repr

/-- A period report in flight to the manager (R12). -/
structure PeriodReport where
  reception : Nat
  period : Nat
  marker : Bool
  carrier : Bool
  tone : Bool
  deriving DecidableEq, Repr

/-- An end notice in flight to the manager (R18). -/
structure EndNotice where
  reception : Nat
  cause : EndCause
  imaged : Bool
  deriving DecidableEq, Repr

/-- A LOCKED notice in flight to a channel (R31). -/
structure LockedNotice where
  reception : Nat
  ref : Nat
  peff : Nat
  deriving DecidableEq, Repr

/-- A first-row assignment in flight to a channel (R13). -/
structure Assignment where
  reception : Nat
  row : Nat
  start : Nat
  deriving DecidableEq, Repr

/-- An end order in flight to a channel (R18). -/
structure EndOrder where
  reception : Nat
  cause : EndCause
  deriving DecidableEq, Repr

/-- A tune output: the message being sent and the message waiting (R19). -/
structure TuneOutput where
  sending : Option Text
  waiting : Option Text
  deriving DecidableEq, Repr

/-- A receive channel, with the messages it has sent that are not yet taken and those sent to it (log entry 3). -/
structure Channel where
  cfg : ChanConfig
  member : Option Membership
  tune : TuneOutput
  stateNotices : List StateNotice
  lockReports : List LockReport
  periodReports : List PeriodReport
  endNotices : List EndNotice
  offers : List LineRecord
  lockedNotices : List LockedNotice
  assignments : List Assignment
  endOrders : List EndOrder
  deriving DecidableEq, Repr

/-! ### The sheet store and the assembler (04, 05) -/

/-- The states of a sheet; a FREE entry holds no sheet (R78). -/
inductive SheetState where
  | defined | filling | complete | retiring
  deriving DecidableEq, Repr

/-- A sheet's origin (R78). -/
inductive SheetOrigin where
  | defined | received
  deriving DecidableEq, Repr

/-- A stored span: its quality and its provenance (R68). -/
structure Span where
  quality : Nat
  chan : Chan
  pass : Nat
  deriving DecidableEq, Repr

/-- A row entry: the row sequence and eight spans, absent for EMPTY (R78). -/
structure RowEntry where
  seq : Nat
  spans : List (Option Span)
  deriving DecidableEq, Repr

/-- A sheet (R78). -/
structure Sheet where
  name : Text
  chart : Nat
  width : Nat
  lpm : Nat
  height : Nat
  state : SheetState
  origin : SheetOrigin
  kept : Bool
  seq : Nat
  openedAt : Nat
  completedAt : Option Nat
  writers : Nat
  readers : Nat
  filledRows : Nat
  bandMap : List (Option Nat)
  rows : List RowEntry
  deriving DecidableEq, Repr

/-- A merge request: the record in the assembler's hand, with the binding, q_min and M of its reception (R62). -/
structure MergeRequest where
  record : LineRecord
  entry : Nat
  qmin : Nat
  margin : Nat
  deriving DecidableEq, Repr

/-! ### Receptions (06) and the schedule (07) -/

/-- The drift mode (R25). -/
inductive Drift where
  | learn
  | fixed (ppm : Int)
  deriving DecidableEq, Repr

/-- The timing state of a reception with its values (R25). -/
inductive Timing where
  | untimed
  | locked (d : Int) (peff ref : Nat)
  | anchored (d : Int) (peff ref phase0 : Nat)
  deriving DecidableEq, Repr

/-- Where a reception came from (R111). -/
inductive Origin where
  | manual (l : LineId)
  | sched (id : Nat)
  deriving DecidableEq, Repr

/-- A member entry, with the manager's last-marker mark (R113, R26). Tune frequencies are in tenths of a kilohertz. -/
structure Member where
  chan : Chan
  mirror : Mirror
  freq : Option Nat
  firstRow : Option Nat
  cause : Option EndCause
  mark : Option Bool
  deriving DecidableEq, Repr

/-- A reception record that is OPEN or ENDED; a FREE record holds nothing (R110, R111). -/
structure Reception where
  number : Nat
  isOpen : Bool
  origin : Origin
  name : Text
  binding : Option Nat
  chart : Nat
  width : Nat
  lpm : Nat
  drift : Drift
  margin : Nat
  qmin : Nat
  listen : Nat
  window : Nat
  duration : Option Nat
  /-- The run second at which the duration timer expires; absent while no timer runs (R122). -/
  timer : Option Nat
  timing : Timing
  members : List Member
  startSecond : Nat
  endSecond : Option Nat
  stored : Nat
  notStored : Nat
  deriving DecidableEq, Repr

/-- What a start carries (R114). The channels stand in the order in which they were written (log entry 28). -/
structure StartSpec where
  chans : List Chan
  freqs : Option (List Nat)
  chart : Nat
  name : Text
  width : Nat
  lpm : Nat
  height : Nat
  drift : Drift
  margin : Nat
  qmin : Nat
  listen : Nat
  window : Nat
  deriving DecidableEq, Repr

/-- A schedule entry's repeat (R138). -/
inductive Repeat where
  | daily | once
  deriving DecidableEq, Repr

/-- The outcome of a scheduled start (R119). -/
inductive StartOutcome where
  | started (number : Nat)
  | busy
  | noSheet
  deriving DecidableEq, Repr

/-- A schedule entry (R138). -/
structure SchedEntry where
  id : Nat
  start : Nat
  duration : Nat
  rep : Repeat
  spec : StartSpec
  enabled : Bool
  line : LineId
  outcome : Option StartOutcome
  deriving DecidableEq, Repr

/-- A time of day (R134). -/
structure TimeOfDay where
  hh : Nat
  mm : Nat
  ss : Nat
  deriving DecidableEq, Repr

/-- An image in the nonvolatile schedule store: the entries in table order and the check value that stands beside them
(R145). -/
structure StoreImage where
  entries : List SchedEntry
  check : Nat
  deriving DecidableEq, Repr, Inhabited

/-- A schedule store write in flight: the snapshot, the line it holds, and the read-back of a completion that fell
within a device reset (R145 to R147). -/
structure StoreWrite where
  snapshot : List SchedEntry
  line : Option LineId
  completed : Option Bool
  deriving DecidableEq, Repr

/-! ### Command lines and transfers (08, 09) -/

/-- The nine event flags, in the order of R168. -/
inductive Flag where
  | news | lost | full | rfail | xfer | line | time | sched | reset
  deriving DecidableEq, Repr

/-- One bit for each event flag. -/
structure FlagSet where
  news : Bool
  lost : Bool
  full : Bool
  rfail : Bool
  xfer : Bool
  line : Bool
  time : Bool
  sched : Bool
  reset : Bool
  deriving DecidableEq, Repr

/-- A line's filter over chart identifiers (R172). -/
inductive Filter where
  | mask (a b : Nat)
  | pair (a b : Nat)
  | range (a b : Nat)
  | off
  deriving DecidableEq, Repr

/-- The kinds of sheet notice (R97). -/
inductive NoticeKind where
  | opened | done | freed
  deriving DecidableEq, Repr

/-- A sheet notice, in flight to a line; an OPENED or DONE one is also what a news entry holds (R97, R174). -/
structure SheetNotice where
  kind : NoticeKind
  name : Text
  chart : Nat
  deriving DecidableEq, Repr

/-- A command line in the input buffer, with its overrun mark (R157, R158). -/
structure CmdLine where
  chars : Text
  overrun : Bool
  deriving DecidableEq, Repr

/-- A command line in the interpreter's hand: the commands not yet taken, and how many were taken (R161). -/
structure InHand where
  todo : List Text
  taken : Nat
  deriving DecidableEq, Repr

/-- The interpreter (R161, R163). `stopping n` is EXECUTING with the answer of a RECV.STOP of reception `n`
outstanding (R131; log entry 14). -/
inductive Interp where
  | ready
  | executing (h : InHand)
  | stopping (reception : Nat) (h : InHand)
  | held (h : InHand)
  deriving DecidableEq, Repr

/-- A line's selection (R180). -/
inductive Selection where
  | auto
  | named (name : Text)
  deriving DecidableEq, Repr

/-- The form of a row read (R185). -/
inductive RowForm where
  | all | filled
  deriving DecidableEq, Repr

/-- The phase of a transfer (R185). -/
inductive TransferPhase where
  | sending | paused | ending
  deriving DecidableEq, Repr

/-- An end that waits for the next boundary (R185). -/
inductive PendingEnd where
  | cancelled | interrupted
  deriving DecidableEq, Repr

/-- A transfer in flight (R185). The pauses are counted in character times of the line (log entry 5); `endsOk` says,
in ENDING, that the terminator decided is OK. -/
structure Transfer where
  entry : Nat
  name : Text
  form : RowForm
  first : Nat
  count : Nat
  next : Nat
  phase : TransferPhase
  pauseRequest : Bool
  pendingEnd : Option PendingEnd
  single : Nat
  cumulative : Nat
  endsOk : Bool
  deriving DecidableEq, Repr

/-- A transmitter: what is left of the text line or frame being sent, the items not begun, and the model's own record
of the bytes that have gone out (log entry 7). -/
structure Tx where
  now : Text
  waiting : List Text
  wire : Text
  deriving DecidableEq, Repr

/-- A command line block (R157 to R180, R185). -/
structure Line where
  /-- After a break, until the input returns to marking, nothing is received (R164). -/
  inBreak : Bool
  complete : List CmdLine
  receiving : CmdLine
  interp : Interp
  flags : FlagSet
  enables : FlagSet
  filter : Filter
  news : List SheetNotice
  autotake : Bool
  selection : Selection
  transfer : Option Transfer
  tx : Tx
  /-- Sheet notices in flight to this line, oldest first (R97). -/
  notices : List SheetNotice
  deriving DecidableEq, Repr

/-! ### The whole machine -/

/-- The state of the C410. -/
structure State where
  /-- The part has power. -/
  powered : Bool
  /-- The RESET input is asserted. -/
  resetInput : Bool
  /-- The RESET input has caused a device reset that has not begun. -/
  resetDue : Bool
  /-- The line whose SYS.RESET has been taken and whose reset has not begun (R183). -/
  sysReset : Option LineId
  /-- A device reset has begun and is not complete (R182). -/
  inReset : Bool
  /-- The sample clock, in fine units (R1). -/
  clock : Nat
  chans : Quad Channel
  /-- The line pool, oldest first (R57). -/
  pool : List LineRecord
  /-- The assembler's record in hand, as its merge request (R60, R62). -/
  hand : Option MergeRequest
  /-- The sheet directory (R78). -/
  dir : List (Option Sheet)
  /-- The free set of the band pool, rising (R85). -/
  freeBands : List Nat
  /-- The contents of the band pool (R65, R67). -/
  mem : Memory
  /-- The latest-opened pointer (R98). -/
  latest : Option Nat
  /-- Unbinds in flight to the sheet store: directory indices (R92). -/
  unbinds : List Nat
  /-- Lines-stored notices in flight to the manager: reception numbers (R71). -/
  storedNotices : List Nat
  /-- Lines-not-stored notices in flight to the manager: reception numbers (R71). -/
  notStoredNotices : List Nat
  /-- The reception table (R110). -/
  recs : List (Option Reception)
  /-- The last issued reception number (R112). -/
  lastNumber : Nat
  /-- The schedule table, in table order (R138). -/
  sched : List SchedEntry
  /-- The run setting of the schedule, true for ON (R153). -/
  schedRun : Bool
  /-- The time of day, absent while UNSET (R134). -/
  tod : Option TimeOfDay
  /-- The run seconds (R135). -/
  runSeconds : Nat
  /-- Minute events in flight to the schedule (R136). -/
  minuteEvents : List Nat
  /-- The image in the nonvolatile schedule store, valid or not (R145; log entry 22). -/
  image : StoreImage
  /-- The schedule store writer; absent while IDLE (R145). -/
  writer : Option StoreWrite
  lines : Triple Line
  /-- The commands that wait, first in first out (the model's queue). -/
  pending : List Instr
  deriving DecidableEq, Repr

end Sys2Proof.Machine

namespace Sys2Proof.Config

/-- FREE VALUE (log entry 22): the check value computed over the entries of an image. -/
opaque imageCheck : List Machine.SchedEntry → Nat

/-- FREE VALUE (log entry 22): what the schedule store holds after a write of these entries that did not complete or whose
read-back disagreed. -/
opaque damagedImage : List Machine.SchedEntry → Machine.StoreImage

end Sys2Proof.Config

namespace Sys2Proof.Machine

/-! ### Values after power-on -/

/-- The default settings of a channel (R2). -/
def ChanConfig.default : ChanConfig :=
  { black := 1500, white := 2300, sense := .norm, squelch := 800, lost := 40, lock := 8 }

/-- A channel after power-on (R20). -/
def Channel.initial : Channel :=
  { cfg := .default, member := none, tune := { sending := none, waiting := none },
    stateNotices := [], lockReports := [], periodReports := [], endNotices := [], offers := [],
    lockedNotices := [], assignments := [], endOrders := [] }

/-- No flag. -/
def FlagSet.empty : FlagSet :=
  { news := false, lost := false, full := false, rfail := false, xfer := false, line := false,
    time := false, sched := false, reset := false }

/-- The command line being received when nothing has been received (R157). -/
def CmdLine.empty : CmdLine := { chars := [], overrun := false }

/-- A line with the values every kind of reset gives it, no flag set and nothing to send (R165, R181, R182). -/
def Line.initial : Line :=
  { inBreak := false, complete := [], receiving := .empty, interp := .ready, flags := .empty,
    enables := .empty, filter := .mask 0 4095, news := [], autotake := true, selection := .auto,
    transfer := none, tx := { now := [], waiting := [], wire := [] }, notices := [] }

/-- The image of a table that was written whole: its entries and their check value (R145, R146). -/
def StoreImage.whole (entries : List SchedEntry) : StoreImage := { entries := entries, check := Config.imageCheck entries }

/-- The part with every block at its power-on value and no flag set, before the schedule image is read
(R20, R57, R99, R127, R134, R135, R181). -/
def State.blank (image : StoreImage) (queue : List Instr) : State :=
  { powered := true, resetInput := false, resetDue := false, sysReset := none, inReset := false,
    clock := 0, chans := ⟨.initial, .initial, .initial, .initial⟩, pool := [], hand := none,
    dir := List.replicate Config.directorySize none, freeBands := List.range Config.bandCount,
    mem := [], latest := none, unbinds := [], storedNotices := [], notStoredNotices := [],
    recs := List.replicate Config.receptionTableSize none, lastNumber := 255, sched := [],
    schedRun := true, tod := none, runSeconds := 0, minuteEvents := [], image := image, writer := none,
    lines := ⟨.initial, .initial, .initial⟩, pending := queue }

/-- The flags of every line after power-on with a valid image: {TIME} (R181). -/
def FlagSet.powerOn : FlagSet := { FlagSet.empty with time := true }

/-- The machine right after reset: power-on of a part as it leaves manufacture, whose schedule store holds a valid
image of an empty table (R145, R181; log entry 21). -/
def State.reset : State :=
  { State.blank (.whole []) [] with
    lines := ⟨{ Line.initial with flags := .powerOn }, { Line.initial with flags := .powerOn },
      { Line.initial with flags := .powerOn }⟩ }

end Sys2Proof.Machine
end

