-- ==== Sys2Proof/Machine/Ops.lean ====
section
/-! DEFINITION. The named operations over the parts of the state: one value per channel and per line, the memory of the
band pool, transmitters, tune outputs, and the queues of messages in flight. -/

namespace Sys2Proof

/-! ### Channels and lines by name -/

/-- The channel's number (00_scope.md: channels are numbered 0 to 3). -/
def Chan.num : Chan → Nat
  | .rc0 => 0 | .rc1 => 1 | .rc2 => 2 | .rc3 => 3

/-- The channels in the order of their numbers. -/
def Chan.all : List Chan := [.rc0, .rc1, .rc2, .rc3]

/-- The channel of a number, if it is one of 0 to 3. -/
def Chan.ofNat? : Nat → Option Chan
  | 0 => some .rc0 | 1 => some .rc1 | 2 => some .rc2 | 3 => some .rc3 | _ => none

/-- The lines in the order A, B, C. -/
def LineId.all : List LineId := [.a, .b, .c]

/-- The value of one channel. -/
def Quad.get {α : Type} (q : Quad α) : Chan → α
  | .rc0 => q.c0 | .rc1 => q.c1 | .rc2 => q.c2 | .rc3 => q.c3

/-- Change the value of one channel. -/
def Quad.upd {α : Type} (q : Quad α) (ch : Chan) (f : α → α) : Quad α :=
  match ch with
  | .rc0 => { q with c0 := f q.c0 }
  | .rc1 => { q with c1 := f q.c1 }
  | .rc2 => { q with c2 := f q.c2 }
  | .rc3 => { q with c3 := f q.c3 }

/-- Change the value of every channel. -/
def Quad.mapAll {α β : Type} (q : Quad α) (f : Chan → α → β) : Quad β :=
  ⟨f .rc0 q.c0, f .rc1 q.c1, f .rc2 q.c2, f .rc3 q.c3⟩

/-- The value of one line. -/
def Triple.get {α : Type} (t : Triple α) : LineId → α
  | .a => t.la | .b => t.lb | .c => t.lc

/-- Change the value of one line. -/
def Triple.upd {α : Type} (t : Triple α) (l : LineId) (f : α → α) : Triple α :=
  match l with
  | .a => { t with la := f t.la }
  | .b => { t with lb := f t.lb }
  | .c => { t with lc := f t.lc }

/-- Change the value of every line. -/
def Triple.mapAll {α β : Type} (t : Triple α) (f : α → β) : Triple β :=
  ⟨f t.la, f t.lb, f t.lc⟩

namespace Machine

/-- One receive channel. -/
def State.chan (s : State) (ch : Chan) : Channel := s.chans.get ch

/-- Change one receive channel. -/
def State.updChan (s : State) (ch : Chan) (f : Channel → Channel) : State :=
  { s with chans := s.chans.upd ch f }

/-- Change every receive channel. -/
def State.mapChans (s : State) (f : Chan → Channel → Channel) : State :=
  { s with chans := s.chans.mapAll f }

/-- One command line block. -/
def State.line (s : State) (l : LineId) : Line := s.lines.get l

/-- Change one command line block. -/
def State.updLine (s : State) (l : LineId) (f : Line → Line) : State :=
  { s with lines := s.lines.upd l f }

/-- Change every command line block. -/
def State.mapLines (s : State) (f : Line → Line) : State :=
  { s with lines := s.lines.mapAll f }

/-- The sheet in a directory entry, if the entry is not FREE (R78). -/
def State.sheet (s : State) (i : Nat) : Option Sheet := (s.dir[i]?).join

/-- Put a sheet into a directory entry. -/
def State.setSheet (s : State) (i : Nat) (sh : Sheet) : State :=
  { s with dir := s.dir.set i (some sh) }

/-- The record at a table index, if it is not FREE (R110). -/
def State.reception (s : State) (k : Nat) : Option Reception := (s.recs[k]?).join

/-- Change the record at a table index. -/
def State.updRec (s : State) (k : Nat) (f : Reception → Reception) : State :=
  { s with recs := s.recs.modify k (Option.map f) }

/-- The table index of the record, OPEN or ENDED, that carries a reception number (R112: numbers in the table are
distinct). -/
def State.findRec (s : State) (n : Nat) : Option Nat :=
  s.recs.findIdx? fun r => match r with
    | some x => x.number == n
    | none => false

/-- Power is on and no device reset is under way: commands and line input are taken (R181, R182). -/
def State.listening (s : State) : Bool := s.powered && !s.inReset

/-! ### Memory of the band pool -/

/-- One byte of the band pool: the listed byte, or white (R67). -/
def Memory.read (m : Memory) (a : Nat) : Byte :=
  match m with
  | [] => Memory.blank
  | (k, b) :: rest => if k = a then b else Memory.read rest a

/-- The cells that a run of bytes from address `a` lists: the bytes that are not what an unlisted address reads as. -/
def Memory.cells (a : Nat) : List Byte → Memory
  | [] => []
  | b :: bs => if b = Memory.blank then Memory.cells (a + 1) bs else (a, b) :: Memory.cells (a + 1) bs

/-- Write a run of bytes from address `a` up. -/
def Memory.write (m : Memory) (a : Nat) (bs : List Byte) : Memory :=
  m.filter (fun c => decide (c.1 < a)) ++ Memory.cells a bs ++
    m.filter (fun c => decide (a + bs.length ≤ c.1))

/-- Read a run of `n` bytes from address `a` up. -/
def Memory.readRun (m : Memory) (a : Nat) : Nat → List Byte
  | 0 => []
  | n + 1 => m.read a :: Memory.readRun m (a + 1) n

/-- Take every trace of a set of bands out (R85: a freed band keeps none). -/
def Memory.eraseBands (m : Memory) (bands : List Nat) : Memory :=
  m.filter fun c => !bands.contains (c.1 / Config.bandBytes)

/-- The address of element byte `k` of row `n` in band `b` (R65: place n mod 32). -/
def bandAddress (b n k : Nat) : Nat :=
  b * Config.bandBytes + (n % Config.bandRows) * Config.bandRowBytes + k

/-! ### The free set of the band pool -/

/-- Put one band back into the free set, which stays rising. -/
def insertBand (b : Nat) : List Nat → List Nat
  | [] => [b]
  | x :: xs => if b ≤ x then b :: x :: xs else x :: insertBand b xs

/-- Put all bands of a freed sheet back (R85). -/
def returnBands (bands free : List Nat) : List Nat := bands.foldr insertBand free

/-- The bands a sheet holds: the places of its band map that are present. -/
def Sheet.bands (sh : Sheet) : List Nat := sh.bandMap.filterMap id

/-! ### Transmitters (R162) -/

/-- Queue one item, a text line or a frame, behind what is still to be sent. -/
def Tx.send (item : Text) (x : Tx) : Tx :=
  match x.now, x.waiting with
  | [], [] => { x with now := item }
  | _, _ => { x with waiting := x.waiting ++ [item] }

/-- Everything queued has been sent. -/
def Tx.flush (x : Tx) : Tx :=
  { now := [], waiting := [], wire := x.wire ++ x.now ++ x.waiting.flatten }

/-- One character time: the next character goes out. -/
def Tx.charTime (x : Tx) : Tx :=
  match x.now with
  | b :: rest => { x with now := rest, wire := x.wire ++ [b] }
  | [] =>
    match x.waiting with
    | (b :: rest) :: more => { now := rest, waiting := more, wire := x.wire ++ [b] }
    | [] :: more => { x with waiting := more }
    | [] => x

/-- A line reset: the transmitter stops after the character it is sending, and the rest is discarded (R165). The model's choice
(log entry 44): the first character not yet sent counts as being sent, also where it begins an item. -/
def Tx.stop (x : Tx) : Tx :=
  { now := [], waiting := [], wire := x.wire ++ (x.now ++ x.waiting.flatten).take 1 }

/-- The transmitter with the next item begun when the one before it has gone out. -/
def Tx.begun (x : Tx) : Tx :=
  match x.now, x.waiting with
  | [], item :: more => { x with now := item, waiting := more }
  | _, _ => x

/-- A device reset: the item that has begun is sent to its end, and those not begun are discarded (R182, R204). -/
def Tx.dropUnbegun (x : Tx) : Tx := { x.begun with waiting := [] }

/-- A device reset with a terminator decided, the last item there is to send: it is sent to its end behind the item that has
begun (R204). -/
def Tx.keepLast (x : Tx) : Tx := { x.begun with waiting := x.begun.waiting.getLast?.toList }

/-- CR and LF, which end every text line (R162). -/
def crlf : Text := [0x0D#8, 0x0A#8]

/-- Send a text line on a line. -/
def State.sendText (s : State) (l : LineId) (t : Text) : State :=
  s.updLine l fun x => { x with tx := x.tx.send (t ++ crlf) }

/-- Everything queued on a line has been sent. -/
def State.flushTx (s : State) (l : LineId) : State :=
  s.updLine l fun x => { x with tx := x.tx.flush }

/-! ### Tune outputs (R19) -/

/-- Place a message on a tune output. -/
def TuneOutput.place (msg : Text) (o : TuneOutput) : TuneOutput :=
  match o.sending with
  | none => { o with sending := some msg }
  | some _ => { o with waiting := some msg }

/-- The message being sent has been sent; the waiting message, if any, begins. -/
def TuneOutput.sent (o : TuneOutput) : TuneOutput :=
  match o.sending with
  | none => o
  | some _ => { sending := o.waiting, waiting := none }

/-! ### Messages in flight -/

/-- A sheet notice sent to lines A, B and C (R97). -/
def State.notify (s : State) (kind : NoticeKind) (name : Text) (chart : Nat) : State :=
  s.mapLines fun x => { x with notices := x.notices ++ [⟨kind, name, chart⟩] }

/-- A notice that a record was dropped or discarded, sent to the manager (R71). -/
def State.noteNotStored (s : State) (reception : Nat) : State :=
  { s with notStoredNotices := s.notStoredNotices ++ [reception] }

/-- A notice that a record wrote a span, sent to the manager (R71). -/
def State.noteStored (s : State) (reception : Nat) : State :=
  { s with storedNotices := s.storedNotices ++ [reception] }

/-- Add one to a 32-bit count that stops at its greatest value (R69, R71). -/
def countUp (n : Nat) : Nat := min (n + 1) Config.maxCount32

/-- An action of the part takes place only while the part has power (log entry 21). -/
def State.live (s : State) (f : State → State) : State := if s.powered then f s else s

end Machine

end Sys2Proof
end

