-- ==== Sys2Proof/Machine/Flags.lean ====
section
/-! DEFINITION. The event flags, their enables and the attention output (R166 to R171). -/

namespace Sys2Proof.Machine

/-- Whether a flag is in a set. -/
def FlagSet.get (fs : FlagSet) : Flag → Bool
  | .news => fs.news
  | .lost => fs.lost
  | .full => fs.full
  | .rfail => fs.rfail
  | .xfer => fs.xfer
  | .line => fs.line
  | .time => fs.time
  | .sched => fs.sched
  | .reset => fs.reset

/-- Put a flag into a set, or take it out. -/
def FlagSet.put (fs : FlagSet) (f : Flag) (v : Bool) : FlagSet :=
  match f with
  | .news => { fs with news := v }
  | .lost => { fs with lost := v }
  | .full => { fs with full := v }
  | .rfail => { fs with rfail := v }
  | .xfer => { fs with xfer := v }
  | .line => { fs with line := v }
  | .time => { fs with time := v }
  | .sched => { fs with sched := v }
  | .reset => { fs with reset := v }

/-- The nine flags in the order of R168. -/
def Flag.all : List Flag := [.news, .lost, .full, .rfail, .xfer, .line, .time, .sched, .reset]

/-- Put every flag of a list into a set, or take each out (R170, R171). -/
def FlagSet.putAll (fs : FlagSet) (names : List Flag) (v : Bool) : FlagSet :=
  names.foldl (fun acc f => acc.put f v) fs

/-- The flags of a set, in the order of R168. -/
def FlagSet.members (fs : FlagSet) : List Flag := Flag.all.filter fs.get

/-- The flags in both of two sets (R169). -/
def FlagSet.both (x y : FlagSet) : FlagSet :=
  { news := x.news && y.news, lost := x.lost && y.lost, full := x.full && y.full,
    rfail := x.rfail && y.rfail, xfer := x.xfer && y.xfer, line := x.line && y.line,
    time := x.time && y.time, sched := x.sched && y.sched, reset := x.reset && y.reset }

/-- The attention output of a line is asserted exactly when some flag is both set and enabled (R167). -/
def Line.attention (x : Line) : Bool := Flag.all.any fun f => x.flags.get f && x.enables.get f

/-- Raise a flag of a line (R166). -/
def Line.raise (f : Flag) (x : Line) : Line := { x with flags := x.flags.put f true }

/-- Raise a flag on one line. -/
def State.raise (s : State) (l : LineId) (f : Flag) : State := s.updLine l (Line.raise f)

/-- Raise a flag on lines A, B and C. -/
def State.raiseAll (s : State) (f : Flag) : State := s.mapLines (Line.raise f)

/-- The flags of a device reset: exactly RESET (R182). -/
def FlagSet.afterReset : FlagSet := { FlagSet.empty with reset := true }

end Sys2Proof.Machine
end

