-- ==== Sys2Proof/Machine/Text.lean ====
section
/-! DEFINITION. The text forms of answers and tune messages: numbers, times, frequencies, words, lists (R210 to R212). -/

namespace Sys2Proof.Machine

/-- The decimal digits of a number, by division; the fuel is any number above it. -/
def digitsFuel : Nat → Nat → Text
  | 0, _ => []
  | fuel + 1, n =>
    if n < 10 then [BitVec.ofNat 8 (48 + n)]
    else digitsFuel fuel (n / 10) ++ [BitVec.ofNat 8 (48 + n % 10)]

/-- A decimal number without grouping and without leading zeros (R211). -/
def dec (n : Nat) : Text := digitsFuel (n + 1) n

/-- A decimal number with leading zeros up to `w` digits. -/
def decPad (w n : Nat) : Text :=
  let d := dec n
  List.replicate (w - d.length) 0x30#8 ++ d

/-- A signed value: "+30", "-300", and 0 without a sign (R211). -/
def signed (d : Int) : Text :=
  if d = 0 then ascii "0" else if 0 < d then ascii "+" ++ dec d.toNat else ascii "-" ++ dec (-d).toNat

/-- A value that may be absent is written "-" when it is (R211). -/
def orDash {α : Type} (f : α → Text) : Option α → Text
  | some x => f x
  | none => ascii "-"

/-- Texts joined by a separator. -/
def joinWith (sep : Text) : List Text → Text
  | [] => []
  | [t] => t
  | t :: rest => t ++ sep ++ joinWith sep rest

/-- A list within one field: members joined by "+", and "-" for none (R211). -/
def plusList : List Text → Text
  | [] => ascii "-"
  | ts => joinWith (ascii "+") ts

/-- Fields separated by commas (R211). -/
def fields (ts : List Text) : Text := joinWith (ascii ",") ts

/-- Items, each with a semicolon before it (R211). -/
def items (ts : List Text) : Text := (ts.map fun t => ascii ";" ++ t).flatten

/-- A frequency in tenths of a kilohertz, with one decimal (R211). -/
def freqText (tenths : Nat) : Text := dec (tenths / 10) ++ ascii "." ++ dec (tenths % 10)

/-- The tune message of a frequency: "TUNE", a space, five digits, a full stop, one digit, CR (R210). -/
def tuneMessage (tenths : Nat) : Text :=
  ascii "TUNE " ++ decPad 5 (tenths / 10) ++ ascii "." ++ dec (tenths % 10) ++ [0x0D#8]

/-- A time of day as hh:mm:ss (R211). -/
def todText (t : TimeOfDay) : Text :=
  decPad 2 t.hh ++ ascii ":" ++ decPad 2 t.mm ++ ascii ":" ++ decPad 2 t.ss

/-- A minute of the day as hh:mm (R211). -/
def minuteText (m : Nat) : Text := decPad 2 (m / 60) ++ ascii ":" ++ decPad 2 (m % 60)

/-- A setting that is on or off (R211). -/
def onOff (b : Bool) : Text := if b then ascii "ON" else ascii "OFF"

/-- The name of a command line. -/
def lineText : LineId → Text
  | .a => ascii "A"
  | .b => ascii "B"
  | .c => ascii "C"

/-- A channel's number. -/
def chanText (ch : Chan) : Text := dec ch.num

/-! ### Words of states and causes (R212) -/

def senseText : Sense → Text
  | .norm => ascii "NORM"
  | .inv => ascii "INV"

/-- The channel state of CHAN.STATE?. -/
def phaseText : Phase → Text
  | .listening => ascii "LISTENING"
  | .collecting => ascii "PHASING"
  | .locked => ascii "PHASING"
  | .imaging => ascii "IMAGING"

def mirrorText : Mirror → Text
  | .listening => ascii "LISTENING"
  | .phasing => ascii "PHASING"
  | .locked => ascii "LOCKED"
  | .imaging => ascii "IMAGING"
  | .ended => ascii "ENDED"

def causeText : EndCause → Text
  | .closed => ascii "CLOSED"
  | .silent => ascii "SILENT"
  | .faded => ascii "FADED"
  | .full => ascii "FULL"
  | .expired => ascii "EXPIRED"
  | .aborted => ascii "ABORTED"

def sheetStateText : SheetState → Text
  | .defined => ascii "DEFINED"
  | .filling => ascii "FILLING"
  | .complete => ascii "COMPLETE"
  | .retiring => ascii "RETIRING"

def sheetOriginText : SheetOrigin → Text
  | .defined => ascii "DEFINED"
  | .received => ascii "RECEIVED"

def originText : Origin → Text
  | .manual l => ascii "MANUAL:" ++ lineText l
  | .sched id => ascii "SCHED:" ++ dec id

def timingText : Timing → Text
  | .untimed => ascii "UNTIMED"
  | .locked _ _ _ => ascii "LOCKED"
  | .anchored _ _ _ _ => ascii "ANCHORED"

def driftText : Drift → Text
  | .learn => ascii "LEARN"
  | .fixed d => signed d

def outcomeText : StartOutcome → Text
  | .started n => ascii "STARTED:" ++ dec n
  | .busy => ascii "BUSY"
  | .noSheet => ascii "NO_SHEET"

def repeatText : Repeat → Text
  | .daily => ascii "DAILY"
  | .once => ascii "ONCE"

def noticeText : NoticeKind → Text
  | .opened => ascii "OPENED"
  | .done => ascii "DONE"
  | .freed => ascii "FREED"

def flagText : Flag → Text
  | .news => ascii "NEWS"
  | .lost => ascii "LOST"
  | .full => ascii "FULL"
  | .rfail => ascii "RFAIL"
  | .xfer => ascii "XFER"
  | .line => ascii "LINE"
  | .time => ascii "TIME"
  | .sched => ascii "SCHED"
  | .reset => ascii "RESET"

/-- A list of flags in the order of R168. -/
def flagsText (fs : FlagSet) : Text := plusList (fs.members.map flagText)

end Sys2Proof.Machine
end

