-- ==== Sys2Proof/Machine/Operands.lean ====
section
/-! DEFINITION. The text of commands: how a command line is cut (R160), which commands there are, and every argument
form: numbers, clamped magnitudes, channels, channel sets, frequencies, names, times, flag names. -/

namespace Sys2Proof.Machine

/-! ### Characters -/

def isSpace (b : Byte) : Bool := b == 0x20#8

/-- Letters are folded to upper case (R160). -/
def upper (b : Byte) : Byte := if 0x61#8 ≤ b ∧ b ≤ 0x7A#8 then b - 0x20#8 else b

/-- A letter A to Z, after folding. -/
def isLetter (b : Byte) : Bool := decide (0x41#8 ≤ b) && decide (b ≤ 0x5A#8)

def isDigit (b : Byte) : Bool := decide (0x30#8 ≤ b) && decide (b ≤ 0x39#8)

/-- A text without the spaces at its two ends. -/
def trim (t : Text) : Text := ((t.dropWhile isSpace).reverse.dropWhile isSpace).reverse

/-- A text cut at every occurrence of a byte; the pieces are one more than the occurrences. -/
def cutAt (sep : Byte) : Text → List Text
  | [] => [[]]
  | b :: rest =>
    if b = sep then [] :: cutAt sep rest
    else
      match cutAt sep rest with
      | [] => [[b]]
      | w :: ws => (b :: w) :: ws

/-! ### Commands (R160) -/

/-- The commands of the command summary (00_scope.md). -/
inductive Keyword where
  | chanTones | chanSense | chanSquelch | chanLost | chanLock | chanState | chanAbort
  | sheetDefine | sheetDelete | sheetKeep | sheetCatalog | sheetInfo | sheetFree | sheetSelect | sheetSelectQuery
  | recvNow | recvStop | recvStatus | recvList
  | schedAdd | schedDel | schedOn | schedOff | schedList | schedRun | schedStore
  | timeSet | timeQuery | sysUptime
  | eventFlags | eventTake | eventClear | eventSet | eventEnable | eventDisable
  | lineFilter | lineNews | lineNewsDrop | lineAutotake
  | sysId | sysReset
  | rowsRead | rowsSince | rowsMap
  deriving DecidableEq, Repr

/-- The command summary: the keyword of each command and whether it is written with "?". -/
def keywordTable : List (Text × Bool × Keyword) :=
  [ (ascii "CHAN.TONES", false, .chanTones), (ascii "CHAN.SENSE", false, .chanSense),
    (ascii "CHAN.SQUELCH", false, .chanSquelch), (ascii "CHAN.LOST", false, .chanLost),
    (ascii "CHAN.LOCK", false, .chanLock), (ascii "CHAN.STATE", true, .chanState),
    (ascii "CHAN.ABORT", false, .chanAbort),
    (ascii "SHEET.DEFINE", false, .sheetDefine), (ascii "SHEET.DELETE", false, .sheetDelete),
    (ascii "SHEET.KEEP", false, .sheetKeep), (ascii "SHEET.CATALOG", true, .sheetCatalog),
    (ascii "SHEET.INFO", true, .sheetInfo), (ascii "SHEET.FREE", true, .sheetFree),
    (ascii "SHEET.SELECT", false, .sheetSelect), (ascii "SHEET.SELECT", true, .sheetSelectQuery),
    (ascii "RECV.NOW", false, .recvNow), (ascii "RECV.STOP", false, .recvStop),
    (ascii "RECV.STATUS", true, .recvStatus), (ascii "RECV.LIST", true, .recvList),
    (ascii "SCHED.ADD", false, .schedAdd), (ascii "SCHED.DEL", false, .schedDel),
    (ascii "SCHED.ON", false, .schedOn), (ascii "SCHED.OFF", false, .schedOff),
    (ascii "SCHED.LIST", true, .schedList), (ascii "SCHED.RUN", false, .schedRun),
    (ascii "SCHED.STORE", false, .schedStore),
    (ascii "TIME.SET", false, .timeSet), (ascii "TIME", true, .timeQuery),
    (ascii "SYS.UPTIME", true, .sysUptime),
    (ascii "EVENT.FLAGS", true, .eventFlags), (ascii "EVENT.TAKE", true, .eventTake),
    (ascii "EVENT.CLEAR", false, .eventClear), (ascii "EVENT.SET", false, .eventSet),
    (ascii "EVENT.ENABLE", false, .eventEnable), (ascii "EVENT.DISABLE", false, .eventDisable),
    (ascii "LINE.FILTER", false, .lineFilter), (ascii "LINE.NEWS", true, .lineNews),
    (ascii "LINE.NEWS.DROP", false, .lineNewsDrop), (ascii "LINE.AUTOTAKE", false, .lineAutotake),
    (ascii "SYS.ID", true, .sysId), (ascii "SYS.RESET", false, .sysReset),
    (ascii "ROWS.READ", false, .rowsRead), (ascii "ROWS.SINCE", true, .rowsSince),
    (ascii "ROWS.MAP", true, .rowsMap) ]

/-- What the judgment of a command's form and keyword gives (R160). -/
inductive Parsed where
  | malformed
  | unknown
  | known (k : Keyword) (args : List Text)
  deriving DecidableEq, Repr

/-- The command of a keyword, if it is in the command summary. -/
def findKeyword (key : Text) (query : Bool) : Option Keyword :=
  (keywordTable.find? fun e => e.1 == key && e.2.1 == query).map fun e => e.2.2

/-- The judgment of a well-formed command by its keyword. -/
def judge (key : Text) (query : Bool) (args : List Text) : Parsed :=
  match findKeyword key query with
  | some k => .known k args
  | none => .unknown

/-- The arguments behind a keyword: none, or spaces and then arguments cut at commas; anything else breaks the form. -/
def parseArgs : Text → Option (List Text)
  | [] => some []
  | b :: rest =>
    if isSpace b then
      match trim (b :: rest) with
      | [] => some []
      | t => some ((cutAt 0x2C#8 t).map trim)
    else none

/-- R160: the form of a command, then its keyword. -/
def parseCommand (command : Text) : Parsed :=
  match (command.map upper).dropWhile isSpace with
  | [] => .malformed
  | b :: rest =>
    if isLetter b then
      let inKey := fun x : Byte => isLetter x || x == 0x2E#8
      let key := (b :: rest).takeWhile inKey
      match (b :: rest).dropWhile inKey with
      | 0x3F#8 :: tail =>
        match parseArgs tail with
        | some args => judge key true args
        | none => .malformed
      | tail =>
        match parseArgs tail with
        | some args => judge key false args
        | none => .malformed
    else .malformed

/-! ### Numbers and clamped magnitudes -/

/-- The value of a text of digits. -/
def digitsValue (t : Text) : Nat := t.foldl (fun n b => n * 10 + (b.toNat - 48)) 0

/-- A whole number: one or more decimal digits (log entry 23). -/
def number? (t : Text) : Option Nat :=
  if t ≠ [] ∧ t.all isDigit then some (digitsValue t) else none

/-- A signed whole number: a whole number with an optional sign before it (R130). -/
def signedNumber? : Text → Option Int
  | 0x2B#8 :: rest => (number? rest).map Int.ofNat
  | 0x2D#8 :: rest => (number? rest).map fun n => -(n : Int)
  | t => (number? t).map Int.ofNat

/-- A number in a range; the value is refused outside it. -/
def numberIn? (lo hi : Nat) (t : Text) : Option Nat :=
  match number? t with
  | some n => if lo ≤ n ∧ n ≤ hi then some n else none
  | none => none

/-- To clamp a value to a range (00_scope.md). -/
def clamp (lo hi n : Nat) : Nat := min (max n lo) hi

/-- To clamp a signed value to a range. -/
def clampInt (lo hi n : Int) : Int := min (max n lo) hi

/-- A clamped argument: a number, or MIN, MAX or DEF (00_scope.md). -/
def clamped? (lo hi dflt : Nat) (t : Text) : Option Nat :=
  if t = ascii "MIN" then some lo
  else if t = ascii "MAX" then some hi
  else if t = ascii "DEF" then some dflt
  else (number? t).map (clamp lo hi)

/-- A clamped argument that takes its default when it is omitted or left empty (R128). -/
def optClamped? (lo hi dflt : Nat) : Option Text → Option Nat
  | none => some dflt
  | some [] => some dflt
  | some t => clamped? lo hi dflt t

/-- The drift argument: LEARN, a signed number clamped to -300..+300, MIN, MAX or DEF (R130). -/
def drift? : Option Text → Option Drift
  | none => some .learn
  | some [] => some .learn
  | some t =>
    if t = ascii "LEARN" then some .learn
    else if t = ascii "MIN" then some (.fixed (-300))
    else if t = ascii "MAX" then some (.fixed 300)
    else if t = ascii "DEF" then some .learn
    else (signedNumber? t).map fun d => .fixed (clampInt (-300) 300 d)

/-! ### Channels, frequencies, names -/

/-- A channel number 0 to 3 (R2). -/
def chan? (t : Text) : Option Chan :=
  match number? t with
  | some n => Chan.ofNat? n
  | none => none

/-- Every element of a list has a value, or none is given. -/
def allSome {α β : Type} (f : α → Option β) : List α → Option (List β)
  | [] => some []
  | x :: xs =>
    match f x, allSome f xs with
    | some y, some ys => some (y :: ys)
    | _, _ => none

/-- A set of one to four distinct channel numbers joined by "+" (R129). -/
def chanSet? (t : Text) : Option (List Chan) :=
  match allSome chan? (cutAt 0x2B#8 t) with
  | some cs => if cs.Nodup then some cs else none
  | none => none

/-- A number of kilohertz with at most one decimal, from 2000.0 to 30000.0, in tenths (R129). -/
def freq? (t : Text) : Option Nat :=
  let tenths : Option Nat :=
    match cutAt 0x2E#8 t with
    | [whole] => (number? whole).map (· * 10)
    | [whole, frac] =>
      match number? whole, number? frac with
      | some n, some d => if frac.length = 1 then some (n * 10 + d) else none
      | _, _ => none
    | _ => none
  match tenths with
  | some f => if 20000 ≤ f ∧ f ≤ 300000 then some f else none
  | none => none

/-- The frequencies argument for a set of `n` channels: omitted or empty for none, else one for each (R129). -/
def freqs? (n : Nat) : Option Text → Option (Option (List Nat))
  | none => some none
  | some [] => some none
  | some t =>
    match allSome freq? (cutAt 0x2B#8 t) with
    | some fs => if fs.length = n then some (some fs) else none
    | none => none

/-- The words that are not names (R79). -/
def reservedNames : List Text := [ascii "ALL", ascii "AUTO", ascii "MIN", ascii "MAX", ascii "DEF"]

/-- A letter, digit, hyphen or underscore (R79). -/
def isNameByte (b : Byte) : Bool := isLetter b || isDigit b || b == 0x2D#8 || b == 0x5F#8

/-- A valid sheet name, already folded (R79). -/
def validName (t : Text) : Bool :=
  t != [] && decide (t.length ≤ 12) && t.all isNameByte && !reservedNames.contains t

/-- A name argument that "*" may not stand for (R79, R102). -/
def name? (t : Text) : Option Text := if validName t then some t else none

/-- A sheet argument: the selection or a name (R180). -/
inductive SheetRef where
  | selection
  | named (name : Text)
  deriving DecidableEq, Repr

/-- A sheet argument: "*" or a valid name, else BAD_ARG (R79, R180). -/
def sheetRef? (t : Text) : Option SheetRef :=
  if t = ascii "*" then some .selection else if validName t then some (.named t) else none

/-- A width (R78). -/
def width? (t : Text) : Option Nat :=
  match number? t with
  | some n => if n = 1024 ∨ n = 1536 ∨ n = 2048 then some n else none
  | none => none

/-- A line rate (R78). -/
def lpm? (t : Text) : Option Nat :=
  match number? t with
  | some n => if n = 60 ∨ n = 90 ∨ n = 120 ∨ n = 180 then some n else none
  | none => none

/-- A chart identifier (R78). -/
def chart? (t : Text) : Option Nat := numberIn? 0 4095 t

/-- A sheet height, clamped (R102, R130). -/
def height? (t : Text) : Option Nat := clamped? 32 2048 1280 t

/-- ON or OFF. -/
def onOff? (t : Text) : Option Bool :=
  if t = ascii "ON" then some true else if t = ascii "OFF" then some false else none

/-! ### Times -/

/-- A part of a time: one or two digits, up to a limit (R149, R155). -/
def timePart? (hi : Nat) (t : Text) : Option Nat := if t.length ≤ 2 then numberIn? 0 hi t else none

/-- hh:mm as a minute of the day (R149). -/
def minute? (t : Text) : Option Nat :=
  match cutAt 0x3A#8 t with
  | [h, m] =>
    match timePart? 23 h, timePart? 59 m with
    | some hh, some mm => some (hh * 60 + mm)
    | _, _ => none
  | _ => none

/-- hh:mm:ss (R155). -/
def timeOfDay? (t : Text) : Option TimeOfDay :=
  match cutAt 0x3A#8 t with
  | [h, m, x] =>
    match timePart? 23 h, timePart? 59 m, timePart? 59 x with
    | some hh, some mm, some ss => some ⟨hh, mm, ss⟩
    | _, _, _ => none
  | _ => none

/-! ### Flag names (R170) -/

/-- The flag of a name. -/
def flag? (t : Text) : Option Flag := Flag.all.find? fun f => flagText f == t

/-- Flag names joined by "+", or ALL (R170). -/
def flags? (t : Text) : Option (List Flag) :=
  if t = ascii "ALL" then some Flag.all else allSome flag? (cutAt 0x2B#8 t)

/-! ### The arguments of a start (R129, R130) -/

/-- What a start carries lies in the ranges of R129 and R130. -/
def StartSpec.wellFormed (sp : StartSpec) : Bool :=
  decide (sp.chans ≠ [] ∧ sp.chans.Nodup) &&
    (match sp.freqs with
      | none => true
      | some fs => decide (fs.length = sp.chans.length) && fs.all fun f => decide (20000 ≤ f ∧ f ≤ 300000)) &&
    decide (sp.chart ≤ 4095) && validName sp.name && decide (sp.width = 1024 ∨ sp.width = 1536 ∨ sp.width = 2048) &&
    decide (sp.lpm = 60 ∨ sp.lpm = 90 ∨ sp.lpm = 120 ∨ sp.lpm = 180) && decide (32 ≤ sp.height ∧ sp.height ≤ 2048) &&
    (match sp.drift with
      | .learn => true
      | .fixed d => decide (-300 ≤ d ∧ d ≤ 300)) &&
    decide (sp.margin ≤ 15) && decide (sp.qmin ≤ 63) && decide (1 ≤ sp.listen ∧ sp.listen ≤ 60) && decide (sp.window ≤ 24)

/-- The arguments of a start from its twelve places (channels, chart, name, width, lpm, height, freqs, drift, M, qmin,
listen, window), the last six of which may be omitted from the end: refused with BAD_ARG when absent here. -/
def startSpec? (args : List Text) : Option StartSpec :=
  match args with
  | channels :: chart :: name :: width :: lpm :: height :: opt =>
    match chanSet? channels, chart? chart, name? name, width? width, lpm? lpm, height? height with
    | some cs, some ct, some nm, some w, some r, some h =>
      match freqs? cs.length opt[0]?, drift? opt[1]?, optClamped? 0 15 4 opt[2]?,
        optClamped? 0 63 12 opt[3]?, optClamped? 1 60 10 opt[4]?, optClamped? 0 24 6 opt[5]? with
      | some fs, some d, some mg, some q, some li, some wi =>
        some { chans := cs, freqs := fs, chart := ct, name := nm, width := w, lpm := r, height := h,
               drift := d, margin := mg, qmin := q, listen := li, window := wi }
      | _, _, _, _, _, _ => none
    | _, _, _, _, _, _ => none
  | _ => none

end Sys2Proof.Machine
end

