-- ==== Sys2Proof/Machine/Command.lean ====
section
/-! DEFINITION. How the interpreter of a line takes one command and answers it (R160 to R163). -/

namespace Sys2Proof.Machine

/-- The error codes (08_command_lines.md). -/
inductive ErrorCode where
  | syntaxError | unknown | badArg | rowRange | busy | active | noSheet | nameExists | dirFull | sheetActive
  | retiring | overlap | schedFull | noEntry | storeFail | tooLong
  deriving DecidableEq, Repr

/-- The word of an error code. -/
def ErrorCode.text : ErrorCode → Text
  | .syntaxError => ascii "SYNTAX"
  | .unknown => ascii "UNKNOWN"
  | .badArg => ascii "BAD_ARG"
  | .rowRange => ascii "ROW_RANGE"
  | .busy => ascii "BUSY"
  | .active => ascii "ACTIVE"
  | .noSheet => ascii "NO_SHEET"
  | .nameExists => ascii "NAME_EXISTS"
  | .dirFull => ascii "DIR_FULL"
  | .sheetActive => ascii "SHEET_ACTIVE"
  | .retiring => ascii "RETIRING"
  | .overlap => ascii "OVERLAP"
  | .schedFull => ascii "SCHED_FULL"
  | .noEntry => ascii "NO_ENTRY"
  | .storeFail => ascii "STORE_FAIL"
  | .tooLong => ascii "TOO_LONG"

/-- What the taking of a command gives the interpreter: a response line (R162), or a command that takes time (R163). -/
inductive Answer where
  /-- "OK": an action that succeeded. -/
  | ok
  /-- "=" and values: a query that succeeded. -/
  | values (v : Text)
  /-- "!" and a code: a command that failed. -/
  | error (e : ErrorCode)
  /-- No answer yet: the interpreter is HELD. -/
  | hold
  /-- "OK", and the interpreter is HELD: SYS.RESET (R183). -/
  | okHold
  /-- No answer until reception `n` has ended: RECV.STOP (R131). -/
  | stopping (n : Nat)
  deriving DecidableEq, Repr

/-- The response line of a failure at position `n` (R162). -/
def errorText (e : ErrorCode) (n : Nat) : Text := ascii "!" ++ e.text ++ ascii " " ++ dec n

/-- The interpreter after a command line's commands up to here succeeded (R161). -/
def InHand.goOn (h : InHand) : Interp :=
  match h.todo with
  | [] => .ready
  | _ :: _ => .executing h

/-- The command line in hand once its next command is taken. -/
def InHand.advance (h : InHand) : InHand := { todo := h.todo.tail, taken := h.taken + 1 }

/-- The interpreter of a line takes a new state. -/
def State.setInterp (s : State) (l : LineId) (i : Interp) : State :=
  s.updLine l fun x => { x with interp := i }

/-- Answer the command just taken, `h` being the command line in hand behind it (R161 to R163). The model's choice (log entry
40): the interpreter is READY, and may take the next command line, once its last response line stands in the transmitter. -/
def State.answer (s : State) (l : LineId) (a : Answer) (h : InHand) : State :=
  match a with
  | .ok => (s.sendText l (ascii "OK")).setInterp l h.goOn
  | .values v => (s.sendText l (ascii "=" ++ v)).setInterp l h.goOn
  | .error e => (s.sendText l (errorText e h.taken)).setInterp l .ready
  | .hold => s.setInterp l (.held h)
  | .okHold => (s.sendText l (ascii "OK")).setInterp l (.held h)
  | .stopping n => s.setInterp l (.stopping n h)

/-- The command the interpreter of a line takes next, while it is EXECUTING. -/
def Line.nextCommand (x : Line) : Option Text :=
  match x.interp with
  | .executing h => h.todo.head?
  | _ => none

/-- Whether the next command of line `l` is judged to be `p` (R160), and the part takes commands. -/
def State.offers (s : State) (l : LineId) (p : Parsed) : Bool :=
  s.listening && match (s.line l).nextCommand with
    | some t => parseCommand t == p
    | none => false

/-- The interpreter of line `l` takes its next command: the response before it in its command line has been sent (R161; log
entry 6), the owner takes the command whole, and the command is answered. The first command of a command line does not wait
for responses to an earlier command line (log entry 40). -/
def State.takeNext (s : State) (l : LineId) (body : State → State × Answer) : State :=
  match (s.line l).interp with
  | .executing h =>
    let before := if h.taken = 0 then s else s.flushTx l
    let r := body before
    r.1.answer l r.2 h.advance
  | _ => s

/-- A text command's step: it takes place when it is the command the interpreter of `l` takes next (log entry 2). -/
def State.command (s : State) (l : LineId) (k : Keyword) (args : List Text) (body : State → State × Answer) : State :=
  if s.offers l (.known k args) then s.takeNext l body else s

/-- A query without arguments: an argument is refused with SYNTAX (R106 and the others). -/
def bareQuery (args : List Text) (v : Text) (s : State) : State × Answer :=
  match args with
  | [] => (s, .values v)
  | _ :: _ => (s, .error .syntaxError)

end Sys2Proof.Machine
end

