-- ==== Sys2Proof/Machine/Store.lean ====
section
/-! DEFINITION. The sheet store: lookup, readers and writers, freeing, bands, reclaim, binding and creation, retirement
(05_the_sheet_store.md, R78 to R101). -/

namespace Sys2Proof.Machine

/-! ### Lookup (R79, R98, R180) -/

/-- The entry of the sheet that holds a name (R79). -/
def State.findSheet (s : State) (name : Text) : Option Nat :=
  s.dir.findIdx? fun e => match e with
    | some sh => sh.name == name
    | none => false

/-- The sheet argument of a command on line `l`, resolved: the entry, or none for NO_SHEET (R79, R180). -/
def State.resolve (s : State) (l : LineId) (r : SheetRef) : Option Nat :=
  match r with
  | .named name => s.findSheet name
  | .selection =>
    match (s.line l).selection with
    | .named name => s.findSheet name
    | .auto => s.latest

/-- The lowest-indexed FREE entry (R78). -/
def State.freeEntry (s : State) : Option Nat := s.dir.findIdx? Option.isNone

/-- A change to the sheet of an entry, if it holds one. -/
def State.updSheet (s : State) (i : Nat) (f : Sheet → Sheet) : State :=
  { s with dir := s.dir.modify i (Option.map f) }

/-! ### A sheet leaving FREE (R78) -/

/-- The number of band indices of a sheet of a height (04: Bands). -/
def bandPlaces (height : Nat) : Nat := (height - 1) / Config.bandRows + 1

/-- A row entry with sequence 0 and every span EMPTY (R78). -/
def RowEntry.empty : RowEntry := { seq := 0, spans := List.replicate 8 none }

/-- The values of a sheet that leaves FREE at run second `now` (R78). -/
def Sheet.fresh (name : Text) (chart width lpm height : Nat) (state : SheetState) (origin : SheetOrigin)
    (writers now : Nat) : Sheet :=
  { name := name, chart := chart, width := width, lpm := lpm, height := height, state := state, origin := origin,
    kept := false, seq := 0, openedAt := now, completedAt := none, writers := writers, readers := 0,
    filledRows := 0, bandMap := List.replicate (bandPlaces height) none,
    rows := List.replicate height .empty }

/-! ### Freeing (R84) -/

/-- An ENDED record loses its binding to entry `i` (R62). -/
def Reception.unbindEnded (i : Nat) (r : Reception) : Reception :=
  if r.isOpen = false ∧ r.binding = some i then { r with binding := none } else r

/-- The sheet of entry `i` is freed, within one request (R84). -/
def State.freeSheet (s : State) (i : Nat) : State :=
  match s.sheet i with
  | none => s
  | some sh =>
    { s with
      dir := s.dir.set i none
      freeBands := returnBands sh.bands s.freeBands
      mem := s.mem.eraseBands sh.bands
      latest := if s.latest = some i then none else s.latest
      recs := s.recs.map (Option.map (Reception.unbindEnded i)) }.notify .freed sh.name sh.chart

/-! ### Readers and writers (R81 to R83, R92) -/

/-- A ROWS.READ begins: one reader more (R81). -/
def State.addReader (s : State) (i : Nat) : State := s.updSheet i fun sh => { sh with readers := sh.readers + 1 }

/-- A transfer ends: one reader fewer, and a RETIRING sheet whose readers reach 0 is freed (R81). -/
def State.dropReader (s : State) (i : Nat) : State :=
  match s.sheet i with
  | none => s
  | some sh =>
    let s' := s.updSheet i fun x => { x with readers := x.readers - 1 }
    if sh.state = .retiring ∧ sh.readers ≤ 1 then s'.freeSheet i else s'

/-- The sheet of entry `i`, its writers at 0, leaves FILLING (R83). -/
def State.leaveFilling (s : State) (i : Nat) : State :=
  match s.sheet i with
  | none => s
  | some sh =>
    if 0 < sh.filledRows then
      (s.updSheet i fun x => { x with state := .complete, completedAt := some s.runSeconds }).notify
        .done sh.name sh.chart
    else
      match sh.origin with
      | .defined => s.updSheet i fun x => { x with state := .defined }
      | .received =>
        if sh.readers = 0 then s.freeSheet i else s.updSheet i fun x => { x with state := .retiring }

/-- The store takes an unbind: one writer fewer, and at 0 the sheet leaves FILLING (R92). -/
def State.unbindSheet (s : State) (i : Nat) : State :=
  match s.sheet i with
  | none => s
  | some sh =>
    if sh.writers = 0 then s
    else
      let s' := s.updSheet i fun x => { x with writers := x.writers - 1 }
      if sh.writers = 1 then s'.leaveFilling i else s'

/-- UNBIND (R92): an unbind in flight that names the entry is taken. -/
def execUnbind (entry : Nat) (s : State) : Host.Outcome State Fault Refusal :=
  .next <| s.live fun s =>
    if s.unbinds.contains entry then ({ s with unbinds := s.unbinds.erase entry }).unbindSheet entry else s

/-! ### Reclaim (R87, R88) -/

/-- Whether a reclaim may take the sheet of an entry, `writing` being the entry of the sheet being written (R87). -/
def reclaimable (writing : Option Nat) (i : Nat) (e : Option Sheet) : Bool :=
  match e with
  | some sh =>
    decide (sh.state = .complete) && !sh.kept && decide (sh.readers = 0) && decide (writing ≠ some i)
  | none => false

/-- The better of two victims: the smaller completed-at, and between equals the lower index (R87). -/
def olderVictim (x y : Nat × Nat) : Nat × Nat := if y.2 < x.2 then y else x

/-- The reclaim's victim among the entries from index `i` on, with its completed-at (R87). -/
def findVictim (writing : Option Nat) : Nat → List (Option Sheet) → Option (Nat × Nat)
  | _, [] => none
  | i, e :: rest =>
    let later := findVictim writing (i + 1) rest
    if reclaimable writing i e then
      let here := (i, (e.bind Sheet.completedAt).getD 0)
      match later with
      | none => some here
      | some y => some (olderVictim here y)
    else later

/-- The reclaim's victim (R87). -/
def State.victim (s : State) (writing : Option Nat) : Option Nat := (findVictim writing 0 s.dir).map Prod.fst

/-- One reclaim: the victim is freed, or nothing changes; whether there was a victim (R88). -/
def State.reclaim (s : State) (writing : Option Nat) : State × Bool :=
  match s.victim writing with
  | some v => (s.freeSheet v, true)
  | none => (s, false)

/-! ### Bands (R65, R86) -/

/-- The lowest-numbered free band is taken out of the free set. -/
def State.takeBand (s : State) : State × Option Nat :=
  match s.freeBands with
  | b :: rest => ({ s with freeBands := rest }, some b)
  | [] => (s, none)

/-- A band for a merge into entry `i`: from the free set, or after one reclaim (R86). -/
def State.allocateBand (s : State) (i : Nat) : State × Option Nat :=
  match s.freeBands with
  | _ :: _ => s.takeBand
  | [] =>
    match s.victim (some i) with
    | some v => (s.freeSheet v).takeBand
    | none => (s, none)

/-! ### Binding (R82, R89 to R91) -/

/-- The sheet of entry `i` enters FILLING with one writer, or gains one (R82, R80, R98). -/
def State.bindTo (s : State) (i : Nat) : State :=
  match s.sheet i with
  | none => s
  | some sh =>
    match sh.state with
    | .filling => s.updSheet i fun x => { x with writers := x.writers + 1 }
    | st =>
      ({ s.updSheet i fun x =>
          { x with
            writers := x.writers + 1
            state := .filling
            openedAt := if st = SheetState.defined then s.runSeconds else x.openedAt } with
        latest := some i }).notify .opened sh.name sh.chart

/-- Whether the sheet of an entry is a candidate for a bind request (R90). -/
def candidate (chart width lpm window now : Nat) (e : Option Sheet) : Bool :=
  match e with
  | none => false
  | some sh =>
    decide (sh.chart = chart ∧ sh.width = width ∧ sh.lpm = lpm) &&
      match sh.state with
      | .defined => true
      | .filling => decide (0 < window ∧ now - sh.openedAt ≤ window * 3600)
      | .complete => decide (0 < window ∧ now - sh.openedAt ≤ window * 3600)
      | .retiring => false

/-- The better of two candidates: the greater opened-at, and between equals the lower index (R90). -/
def newerCandidate (x y : Nat × Nat) : Nat × Nat := if x.2 < y.2 then y else x

/-- The candidate bound among the entries from index `i` on, with its opened-at (R90). -/
def findCandidate (chart width lpm window now : Nat) : Nat → List (Option Sheet) → Option (Nat × Nat)
  | _, [] => none
  | i, e :: rest =>
    let later := findCandidate chart width lpm window now (i + 1) rest
    if candidate chart width lpm window now e then
      let here := (i, (e.map Sheet.openedAt).getD 0)
      match later with
      | none => some here
      | some y => some (newerCandidate here y)
    else later

/-- The suffixed names tried for a requested name that is held (R91). -/
def suffixedNames (name : Text) : List Text :=
  [2, 3, 4, 5, 6, 7, 8, 9].map fun k => name.take 10 ++ ascii "-" ++ dec k

/-- The name a created sheet takes, against the directory as it stands (R91). -/
def State.chooseName (s : State) (name : Text) : Option Text :=
  (name :: suffixedNames name).find? fun n => (s.findSheet n).isNone

/-- A sheet is created for a reception, in a FREE entry or in one that a reclaim frees (R91). -/
def State.createSheet (s : State) (name : Text) (chart width lpm height : Nat) : State × Option Nat :=
  let found : State × Option Nat :=
    match s.freeEntry with
    | some i => (s, some i)
    | none =>
      match s.victim none with
      | some v => (s.freeSheet v, some v)
      | none => (s, none)
  let s1 := found.1
  match found.2 with
  | none => (s1, none)
  | some i =>
    match s1.chooseName name with
    | none => (s1, none)
    | some n =>
      let sh := Sheet.fresh n chart width lpm height .filling .received 1 s1.runSeconds
      (({ s1.setSheet i sh with latest := some i }).notify .opened n chart, some i)

/-- The store takes a bind request: a candidate is bound, or a sheet created; the entry, or none for NO_SHEET (R89). -/
def State.bindSheet (s : State) (name : Text) (chart width lpm height window : Nat) : State × Option Nat :=
  match findCandidate chart width lpm window s.runSeconds 0 s.dir with
  | some (i, _) => (s.bindTo i, some i)
  | none => s.createSheet name chart width lpm height

/-! ### Deletion (R94, R96) -/

/-- A deletion applied to a sheet that is not FILLING (R94, R96). -/
def State.deleteSheet (s : State) (i : Nat) : State :=
  match s.sheet i with
  | none => s
  | some sh =>
    match sh.state with
    | .defined => if sh.readers = 0 then s.freeSheet i else s.updSheet i fun x => { x with state := .retiring }
    | .complete => if sh.readers = 0 then s.freeSheet i else s.updSheet i fun x => { x with state := .retiring }
    | .filling => s
    | .retiring => s

end Sys2Proof.Machine
end

