-- ==== Sys2Proof/Machine/Assembly.lean ====
section
/-! DEFINITION. The line pool, the chart assembler and the merge (04_the_line_pool_and_chart_assembly.md, R53 to R77). -/

namespace Sys2Proof.Machine

/-! ### The line pool -/

/-- The pool takes a record offer: appended below 32 records, else dropped with a notice (R58, R59). -/
def State.takeOffer (s : State) (r : LineRecord) : State :=
  if s.pool.length < Config.poolSize then { s with pool := s.pool ++ [r] } else s.noteNotStored r.reception

/-- LINE_RECORD_OFFER (R58): the oldest offer of the channel in flight is taken. -/
def execLineRecordOffer (ch : Chan) (s : State) : Host.Outcome State Fault Refusal :=
  .next <| s.live fun s =>
    match (s.chan ch).offers with
    | [] => s
    | r :: rest => (s.updChan ch fun c => { c with offers := rest }).takeOffer r

/-! ### The assembler -/

/-- The assembler finds the record's sheet and sends a merge request, or discards the record (R62). -/
def State.findMerge (s : State) (r : LineRecord) : State :=
  match (s.findRec r.reception).bind s.reception with
  | none => s
  | some rec =>
    match rec.binding with
    | none => s.noteNotStored r.reception
    | some i => { s with hand := some { record := r, entry := i, qmin := rec.qmin, margin := rec.margin } }

/-- ASSEMBLER_TAKE (R60): the waiting assembler takes the oldest record. -/
def execAssemblerTake (s : State) : Host.Outcome State Fault Refusal :=
  .next <| s.live fun s =>
    match s.hand, s.pool with
    | none, r :: rest => ({ s with pool := rest }).findMerge r
    | _, _ => s

/-! ### The merge -/

/-- Whether a span of quality `q` is to be stored over what is stored (R53, R64). -/
def storesSpan (qmin margin q : Nat) (stored : Option Span) : Bool :=
  decide (qmin ≤ q) &&
    match stored with
    | none => true
    | some sp => decide (sp.quality + margin ≤ q)

/-- For each span of a record, whether it is to be stored in a row (R64). -/
def storedSpans (qmin margin : Nat) (quals : List Nat) (row : RowEntry) : List Bool :=
  List.zipWith (storesSpan qmin margin) quals row.spans

/-- The row's spans once those to be stored are written with the record's quality and provenance (R68). -/
def writeSpans (r : LineRecord) : List Bool → List Nat → List (Option Span) → List (Option Span)
  | st :: store, q :: quals, o :: old =>
    (if st then some ⟨q, r.chan, r.reception⟩ else o) :: writeSpans r store quals old
  | _, _, old => old

/-- Two elements to a byte, the earlier in the high four bits (R209; log entry 25). -/
def packGrays : List Nat → List Byte
  | x :: y :: rest => BitVec.ofNat 8 ((x % 16) * 16 + y % 16) :: packGrays rest
  | [x] => [BitVec.ofNat 8 ((x % 16) * 16 + 15)]
  | [] => []

/-- Span `k`'s elements of a record, as bytes. -/
def LineRecord.spanBytes (r : LineRecord) (k : Nat) : List Byte :=
  packGrays ((r.grays.drop (k * (r.width / 8))).take (r.width / 8))

/-- Write the elements of the spans to be stored into the row's place in its band, from span `k` on (R68). -/
def writeElements (r : LineRecord) (band : Nat) : Nat → List Bool → Memory → Memory
  | _, [], m => m
  | k, true :: rest, m =>
    writeElements r band (k + 1) rest (m.write (bandAddress band r.row (k * (r.width / 16))) (r.spanBytes k))
  | k, false :: rest, m => writeElements r band (k + 1) rest m

/-- The row entry of row `n` of a sheet. -/
def Sheet.row (sh : Sheet) (n : Nat) : RowEntry := (sh.rows[n]?).getD .empty

/-- The band of row `n` of a sheet, if its place in the band map is present (R65). -/
def Sheet.bandOf (sh : Sheet) (n : Nat) : Option Nat := (sh.bandMap[n / Config.bandRows]?).join

/-- The sheet after a merge wrote spans of a record: seq, row entry, filled-row count (R68 to R70). -/
def Sheet.merged (sh : Sheet) (r : LineRecord) (store : List Bool) : Sheet :=
  let old := sh.row r.row
  { sh with
    seq := countUp sh.seq
    filledRows := if old.spans.all Option.isNone then sh.filledRows + 1 else sh.filledRows
    rows := sh.rows.set r.row ⟨countUp sh.seq, writeSpans r store r.quals old.spans⟩ }

/-- The spans are written: band memory, row table, counts, and the lines-stored notice (R68 to R71). -/
def State.writeRecord (s : State) (r : LineRecord) (i band : Nat) (store : List Bool) : State :=
  { s.updSheet i (fun sh => sh.merged r store) with mem := writeElements r band 0 store s.mem }.noteStored
    r.reception

/-- A merge request on a FILLING sheet whose row and width match (R64 to R70). -/
def State.mergeInto (s : State) (q : MergeRequest) (sh : Sheet) : State :=
  let store := storedSpans q.qmin q.margin q.record.quals (sh.row q.record.row)
  if store.any id then
    match sh.bandOf q.record.row with
    | some b => s.writeRecord q.record q.entry b store
    | none =>
      let got := s.allocateBand q.entry
      match got.2 with
      | some b =>
        (got.1.updSheet q.entry fun x =>
          { x with bandMap := x.bandMap.set (q.record.row / Config.bandRows) (some b) }).writeRecord
          q.record q.entry b store
      | none => (got.1.noteNotStored q.record.reception).raiseAll .full
  else s

/-- A merge request whose binding stands is merged, or discarded and counted, by the bound sheet's state (R63, R77). -/
def State.mergeBound (s : State) (q : MergeRequest) : State :=
  match s.sheet q.entry with
  | none => s.noteNotStored q.record.reception
  | some sh =>
    if sh.state = .filling ∧ q.record.row < sh.height ∧ q.record.width = sh.width then s.mergeInto q sh
    else s.noteNotStored q.record.reception

/-- The store takes a merge request whole (R63, R74, R75). A request whose binding was removed when its sheet was freed is
discarded and counted; one whose reception's record has been taken for another reception is discarded uncounted (R62; log
entry 30). -/
def State.takeMerge (s : State) (q : MergeRequest) : State :=
  match (s.findRec q.record.reception).bind s.reception with
  | none => s
  | some rec =>
    match rec.binding with
    | none => s.noteNotStored q.record.reception
    | some i => if i = q.entry then s.mergeBound q else s

/-- MERGE_REQUEST (R63): the request in the assembler's hand is taken, and the assembler waits again. -/
def execMergeRequest (s : State) : Host.Outcome State Fault Refusal :=
  .next <| s.live fun s =>
    match s.hand with
    | none => s
    | some q => ({ s with hand := none }).takeMerge q

/-! ### What a sheet's rows show (R67, R192) -/

/-- The element bytes of row `n`: the band's bytes of a stored span, white for an EMPTY one (R67, R192). -/
def State.rowBytes (s : State) (sh : Sheet) (n : Nat) : List Byte :=
  let one : Option Span × Nat → List Byte := fun p =>
    match p.1, sh.bandOf n with
    | some _, some b => s.mem.readRun (bandAddress b n (p.2 * (sh.width / 16))) (sh.width / 16)
    | _, _ => List.replicate (sh.width / 16) Memory.blank
  ((sh.row n).spans.zipIdx.map one).flatten

end Sys2Proof.Machine
end

