-- ==== Sys2Proof/Machine/Picture.lean ====
section
/-! DEFINITION. Line timing of rows and elements, gray levels, strikes and span quality
(02_phasing_and_line_timing.md, 03_picture_conversion_and_span_quality.md). -/

namespace Sys2Proof.Machine

/-- The nominal line period P in samples (R5). -/
def nominalPeriod (lpm : Nat) : Nat := Config.samplesPerSecond * 60 / lpm

/-- The tolerance T of a line period (R5). -/
def tolerance (p : Nat) : Nat := p / 100

/-- The judgment of one sample (R4). -/
def judgeTone (cfg : ChanConfig) (f : Nat) : Tone :=
  let h := (cfg.white - cfg.black) / 4
  let high := decide (cfg.white - h ≤ f)
  let low := decide (f ≤ cfg.black + h)
  match cfg.sense with
  | .norm => if high then .white else if low then .black else .neither
  | .inv => if low then .white else if high then .black else .neither

/-- The gray level g of a frequency (R43). -/
def grayLevel (cfg : ChanConfig) (f : Nat) : Nat :=
  if f ≤ cfg.black then 0
  else if cfg.white ≤ f then 15
  else (30 * (f - cfg.black) + (cfg.white - cfg.black)) / (2 * (cfg.white - cfg.black))

/-- The stored gray level of an element (R43, R44). -/
def storedGray (cfg : ChanConfig) (f : Nat) : Nat :=
  match cfg.sense with
  | .norm => grayLevel cfg f
  | .inv => 15 - grayLevel cfg f

/-- A strike: a frequency more than 100 Hz outside the tones (R45). -/
def isStrike (cfg : ChanConfig) (f : Nat) : Bool := decide (f + 100 < cfg.black) || decide (cfg.white + 100 < f)

/-- The strike penalty of `k` strikes among `n` elements (R48). -/
def strikePenalty (k n : Nat) : Nat := k * 128 / n

/-- The quality of a span of mean envelope `a` and strike penalty `pen`, clamped to 0-63 (R49). -/
def spanQuality (a pen : Nat) : Nat := min (a / 512 - pen) 63

/-- The mean envelope of a span's elements (R47). -/
def meanEnvelope (xs : List Sample) : Nat := (xs.map Sample.env).sum / xs.length

/-- The quality of a span's elements (R47 to R49). -/
def rateSpan (cfg : ChanConfig) (xs : List Sample) : Nat :=
  spanQuality (meanEnvelope xs)
    (strikePenalty (xs.countP fun x => isStrike cfg x.freq) xs.length)

/-- Span `k` of a row of `w` elements (R46). -/
def spanElements {α : Type} (w k : Nat) (xs : List α) : List α := (xs.drop (k * (w / 8))).take (w / 8)

/-- The sample index of element `j` of the row that starts at `start` (R40). -/
def elementIndex (start peff w j : Nat) : Nat := (start + j * peff / w) / Config.fine

/-- The samples of the elements of a row, element 0 first (R40, R42). -/
def rowElements (at_ : Nat → Sample) (start peff w : Nat) : List Sample :=
  (List.range w).map fun j => at_ (elementIndex start peff w j)

/-- The line record of a row (R50, R55). -/
def formRecord (ch : Chan) (cfg : ChanConfig) (m : Membership) (peff : Nat) (at_ : Nat → Sample) : LineRecord :=
  let xs := rowElements at_ m.rowStart peff m.width
  { chan := ch, reception := m.reception, row := m.row, width := m.width,
    grays := xs.map fun x => storedGray cfg x.freq,
    quals := (List.range 8).map fun k => rateSpan cfg (spanElements m.width k xs) }

/-- Carrier of the samples from index `a` up to and not including `b` (R7). -/
def hasCarrier (cfg : ChanConfig) (at_ : Nat → Sample) (a b : Nat) : Bool :=
  decide (cfg.squelch ≤ ((List.range (b - a)).map fun k => (at_ (a + k)).env).sum / (b - a))

/-- The sample a member keeps for a sample index, `next` being the index of the next sample to come (R1); a sample it
does not keep is a free value within the estimator's ranges (log entry 10). -/
def Membership.sampleAt (m : Membership) (ch : Chan) (next i : Nat) : Sample :=
  let free : Sample :=
    { freq := min (Config.unheardSample ch.num i).freq 4800, env := min (Config.unheardSample ch.num i).env 32767 }
  if i < next then (m.kept[next - 1 - i]?).getD free else free

end Sys2Proof.Machine
end

