-- ==== Sys2Proof/Machine/Channels.lean ====
section
/-! DEFINITION. The receive channels: what a member hears, its marker run, its reports and rows, the end of its
membership, the tune outputs, and the CHAN commands (01_receive_channels.md). -/

namespace Sys2Proof.Machine

/-! ### Joining and ending -/

/-- A listen limit in samples (R17). -/
def listenSamples (minutes : Nat) : Nat := minutes * 60 * Config.samplesPerSecond

/-- The detectors of a channel that joins before sample `next` (R1, R6). -/
def Detector.fresh (next : Nat) : Detector :=
  { last := none, lastClear := none, whiteFrom := none,
    firstWindow := (next + (Config.windowSamples - 1)) / Config.windowSamples * Config.windowSamples,
    changes := 0, windowSum := 0, opening := 0, closing := 0 }

/-- A channel joins a reception before sample `next` (R8). -/
def Channel.join (reception lpm width height listenLimit : Nat) (freq : Option Nat) (next : Nat) (c : Channel) :
    Channel :=
  { c with
    member := some
      { reception := reception, lpm := lpm, width := width, height := height, listenLimit := listenLimit,
        phase := .listening, run := [], listen := some (next + listenSamples listenLimit), lost := 0,
        timing := none, row := 0, rowStart := 0, det := .fresh next, markers := [], toneEnds := [], kept := [] }
    tune := match freq with
      | some f => c.tune.place (tuneMessage f)
      | none => c.tune }

/-- A membership ends: the channel is IDLE and its end notice is sent (R18). -/
def Channel.endMember (cause : EndCause) (c : Channel) : Channel :=
  match c.member with
  | none => c
  | some m =>
    { c with
      member := none
      endNotices := c.endNotices ++ [⟨m.reception, cause, decide (m.phase = .imaging)⟩] }

/-- A channel takes an end order: it ends if it is an active member of the reception named (R18). -/
def Channel.obeyEnd (o : EndOrder) (c : Channel) : Channel :=
  match c.member with
  | none => c
  | some m => if m.reception = o.reception then c.endMember o.cause else c

/-- A member changes what it holds. -/
def Channel.setMember (m : Membership) (c : Channel) : Channel := { c with member := some m }

/-- A member sends the manager a state notice (R113). -/
def Channel.tellState (reception : Nat) (mirror : Mirror) (c : Channel) : Channel :=
  { c with stateNotices := c.stateNotices ++ [⟨reception, mirror⟩] }

/-! ### What a member hears -/

/-- The marker that ends at sample `idx`, judged `t`, if one does: its position (R5). -/
def Detector.markerAt (d : Detector) (p idx : Nat) (t : Tone) : Option Nat :=
  match d.whiteFrom with
  | none => none
  | some e =>
    if t = .black ∧ p / 20 - tolerance p ≤ idx - e ∧ idx - e ≤ p / 20 + tolerance p then some e else none

/-- Whether the sample at `idx` is the last of a window the member counts (R6). -/
def Detector.windowEnds (d : Detector) (idx : Nat) : Bool :=
  decide (idx % Config.windowSamples = Config.windowSamples - 1) &&
    decide (d.firstWindow + (Config.windowSamples - 1) ≤ idx)

/-- The patterns a window may qualify for (R6). -/
inductive Pattern where
  | opening | closing
  deriving DecidableEq, Repr

/-- The pattern a whole window qualifies for (R6). -/
def windowPattern (squelch changes sum : Nat) : Option Pattern :=
  if squelch ≤ sum / Config.windowSamples then
    if 32 ≤ changes ∧ changes ≤ 38 then some .opening
    else if 44 ≤ changes ∧ changes ≤ 50 then some .closing
    else none
  else none

/-- The detectors after the sample at `idx`, before a window that ends there is counted (R5, R6). -/
def Detector.hear (idx : Nat) (t : Tone) (env : Nat) (d : Detector) : Detector :=
  let fresh := decide (idx % Config.windowSamples = 0)
  let change := if t = .white ∧ d.lastClear = some .black then 1 else 0
  { d with
    last := some t
    lastClear := if t = .neither then d.lastClear else some t
    whiteFrom :=
      match t with
      | .white =>
        match d.whiteFrom with
        | some e => some e
        | none => if d.last = some .black ∨ d.last = some .neither then some idx else none
      | _ => none
    changes := (if fresh then 0 else d.changes) + change
    windowSum := (if fresh then 0 else d.windowSum) + env }

/-- The pattern counts after a window that qualifies for `q`; a count that reaches 30 returns to 0 (R6). -/
def Detector.countWindow (q : Option Pattern) (d : Detector) : Detector :=
  match q with
  | some .opening =>
    { d with opening := if Config.windowsHeard ≤ d.opening + 1 then 0 else d.opening + 1, closing := 0 }
  | some .closing =>
    { d with opening := 0, closing := if Config.windowsHeard ≤ d.closing + 1 then 0 else d.closing + 1 }
  | none => { d with opening := 0, closing := 0 }

/-- The pattern heard at the end of a window that qualifies for `q` (R6). -/
def Detector.heard (q : Option Pattern) (d : Detector) : Option Pattern :=
  match q with
  | some .opening => if Config.windowsHeard ≤ d.opening + 1 then some .opening else none
  | some .closing => if Config.windowsHeard ≤ d.closing + 1 then some .closing else none
  | none => none

/-- The least sample index a member keeps once sample `next - 1` is taken: the current and previous line periods
(R1; log entry 10). -/
def Membership.keepFrom (m : Membership) (next : Nat) : Nat :=
  match m.timing with
  | none => next - 2 * nominalPeriod m.lpm
  | some t =>
    if m.phase = .imaging then (m.rowStart - t.peff) / Config.fine
    else (t.ref + (t.period - 1) * t.peff) / Config.fine

/-- A member keeps one more sample (R1). -/
def Membership.keep (x : Sample) (next : Nat) (m : Membership) : Membership :=
  { m with kept := (x :: m.kept).take (next - m.keepFrom next) }

/-! ### The marker run (R9, R10) -/

/-- The run after a marker at `e`: appended within tolerance of the last run marker, else started anew (R9). -/
def extendRun (p : Nat) (run : List Nat) (e : Nat) : List Nat :=
  match run.getLast? with
  | none => [e]
  | some last =>
    if last + p - tolerance p ≤ e ∧ e ≤ last + p + tolerance p then run ++ [e] else [e]

/-- The member locks: its lock report is sent and its run cleared (R10, R15). -/
def Channel.lockMember (m : Membership) (run : List Nat) (c : Channel) : Channel :=
  let told : Channel := (c.setMember { m with phase := .locked, run := [], lost := 0 }).tellState m.reception .locked
  { told with lockReports := c.lockReports ++ [{ reception := m.reception, run := run }] }

/-- A marker found at position `e` acts on the run while the reception is UNTIMED, and enters the period reports once
it is LOCKED; in IMAGING it is picture (R5, R9, R11). -/
def Channel.onMarker (e : Nat) (c : Channel) : Channel :=
  match c.member with
  | none => c
  | some m =>
    match m.timing with
    | some _ => if m.phase = .imaging then c else c.setMember { m with markers := e :: m.markers }
    | none =>
      match m.phase with
      | .listening => (c.setMember { m with phase := .collecting, run := [e] }).tellState m.reception .phasing
      | .collecting =>
        let run := extendRun (nominalPeriod m.lpm) m.run e
        if c.cfg.lock ≤ run.length then c.lockMember m run else c.setMember { m with run := run }
      | .locked => c
      | .imaging => c

/-- Hearing the opening pattern restarts the listen timer outside IMAGING (R17). -/
def Channel.onOpening (next : Nat) (c : Channel) : Channel :=
  match c.member with
  | none => c
  | some m =>
    if m.phase = .imaging then c
    else c.setMember { m with listen := some (next + listenSamples m.listenLimit) }

/-! ### Rows and period reports -/

/-- The member in IMAGING ends its current row: the record is formed and offered, the lost-line count updated, and the
next row begun unless the membership ends FADED or FULL (R14, R15). -/
def Channel.endRow (ch : Chan) (next peff : Nat) (m : Membership) (c : Channel) : Channel :=
  let after := m.rowStart + peff
  let carrier := hasCarrier c.cfg (m.sampleAt ch next) (m.rowStart / Config.fine) (after / Config.fine)
  let lost := if carrier then 0 else m.lost + 1
  let c1 := { c with offers := c.offers ++ [formRecord ch c.cfg m peff (m.sampleAt ch next)] }
  let m1 := { m with lost := lost }
  if carrier = false ∧ c.cfg.lost ≤ lost then (c1.setMember m1).endMember .faded
  else if m.height ≤ m.row + 1 then (c1.setMember m1).endMember .full
  else c1.setMember { m1 with row := m.row + 1, rowStart := after }

/-- The member sends the report of the period that has just ended (R12), and counts it if it is locked (R15). -/
def Channel.report (ch : Chan) (next : Nat) (t : MemberTiming) (m : Membership) (c : Channel) : Channel :=
  let a := (t.ref + t.period * t.peff) / Config.fine
  let b := (t.ref + (t.period + 1) * t.peff) / Config.fine
  let tol := tolerance (nominalPeriod m.lpm)
  let marker := m.markers.any fun e => decide (a ≤ e + tol) && decide (e ≤ a + tol)
  let tone := m.toneEnds.any fun w => decide (a ≤ w) && decide (w < b)
  let carrier := hasCarrier c.cfg (m.sampleAt ch next) a b
  let lost := if m.phase = .locked then (if carrier then 0 else m.lost + 1) else m.lost
  let m1 := { m with
    lost := lost, timing := some { t with period := t.period + 1 },
    markers := m.markers.filter (fun e => decide (b ≤ e + tol)),
    toneEnds := m.toneEnds.filter (fun w => decide (b ≤ w)) }
  let told : PeriodReport := ⟨m.reception, t.period, marker, carrier, tone⟩
  let c1 : Channel := { c with periodReports := c.periodReports ++ [told] }
  if m.phase = .locked ∧ carrier = false ∧ c.cfg.lost ≤ lost then (c1.setMember m1).endMember .faded
  else c1.setMember m1

/-- The sample clock reaches sample `next`: a row ends (R14) or a period report falls due (R12). -/
def Channel.reach (ch : Chan) (next : Nat) (c : Channel) : Channel :=
  match c.member with
  | none => c
  | some m =>
    match m.timing with
    | none => c
    | some t =>
      if m.phase = .imaging then
        if m.rowStart + t.peff ≤ next * Config.fine then c.endRow ch next t.peff m else c
      else
        if t.ref + (t.period + 1) * t.peff ≤ next * Config.fine then c.report ch next t m else c

/-- One sample at index `idx`: kept, judged, counted, and the clock moves past it (R1, R4 to R7, R14, R16, R17;
log entry 8 for the order of what falls on one sample). -/
def Channel.hearSample (ch : Chan) (idx : Nat) (x : Sample) (c : Channel) : Channel :=
  match c.member with
  | none => c
  | some m =>
    let t := judgeTone c.cfg x.freq
    let d := m.det.hear idx t x.env
    let ends := m.det.windowEnds idx
    let q := if ends then windowPattern c.cfg.squelch d.changes d.windowSum else none
    let heard := if ends then d.heard q else none
    let m1 := { m.keep x (idx + 1) with
      det := if ends then d.countWindow q else d
      toneEnds := if q = none then m.toneEnds else idx :: m.toneEnds }
    let c1 := c.setMember m1
    let c2 := match m.det.markerAt (nominalPeriod m.lpm) idx t with
      | some e => c1.onMarker e
      | none => c1
    match heard with
    | some .closing => c2.endMember .closed
    | some .opening => (c2.onOpening (idx + 1)).reach ch (idx + 1)
    | none => c2.reach ch (idx + 1)

/-- SAMPLE_TICK (R1): the clock advances by 256 and every channel takes its sample. The clock stands at 0 during a
device reset (log entry 17). -/
def execSampleTick (heard : Quad Sample) (s : State) : Host.Outcome State Fault Refusal :=
  .next <| s.live fun s =>
    if s.inReset then s
    else
      { s with
        clock := s.clock + Config.fine
        chans := s.chans.mapAll fun ch c => c.hearSample ch (s.clock / Config.fine) (heard.get ch) }

/-! ### Timers of a member -/

/-- The deadline of a run whose last marker is `last` (R9). -/
def runDeadline (p last : Nat) : Nat := last + p + p / 20 + 2 * tolerance p + 1

/-- A run at its deadline is abandoned (R9). -/
def Channel.abandonRun (idx : Nat) (c : Channel) : Channel :=
  match c.member with
  | none => c
  | some m =>
    match m.phase, m.run.getLast? with
    | .collecting, some last =>
      if runDeadline (nominalPeriod m.lpm) last ≤ idx then
        (c.setMember { m with phase := .listening, run := [] }).tellState m.reception .listening
      else c
    | _, _ => c

/-- RUN_DEADLINE (R9): taken when the sample clock has reached the deadline (log entry 13). -/
def execRunDeadline (ch : Chan) (s : State) : Host.Outcome State Fault Refusal :=
  .next <| s.live fun s => s.updChan ch (Channel.abandonRun (s.clock / Config.fine))

/-- A listen timer that has run its length: SILENT in LISTENING and PHASING (collecting), stopped in PHASING (locked)
(R17). -/
def Channel.listenExpired (idx : Nat) (c : Channel) : Channel :=
  match c.member with
  | none => c
  | some m =>
    match m.listen with
    | none => c
    | some e =>
      if e ≤ idx then
        match m.phase with
        | .listening => c.endMember .silent
        | .collecting => c.endMember .silent
        | .locked => c.setMember { m with listen := none }
        | .imaging => c.setMember { m with listen := none }
      else c

/-- LISTEN_TIMER_EXPIRY (R17): taken when the timer has run its length (log entry 13). -/
def execListenTimerExpiry (ch : Chan) (s : State) : Host.Outcome State Fault Refusal :=
  .next <| s.live fun s => s.updChan ch (Channel.listenExpired (s.clock / Config.fine))

/-! ### Messages a channel takes -/

/-- The first period that begins at or after the moment a LOCKED notice is taken (R12, R31; log entry 12). -/
def firstPeriod (ref peff now : Nat) : Nat := max 1 ((now - ref + peff - 1) / peff)

/-- A channel takes a LOCKED notice (R11). -/
def Channel.takeLocked (now : Nat) (n : LockedNotice) (c : Channel) : Channel :=
  match c.member with
  | none => c
  | some m =>
    if m.reception = n.reception ∧ m.timing = none then
      let t : MemberTiming := ⟨n.ref, n.peff, firstPeriod n.ref n.peff now⟩
      match m.phase with
      | .listening => c.setMember { m with timing := some t, run := [] }
      | .collecting =>
        (c.setMember { m with timing := some t, phase := .locked, run := [], lost := 0 }).tellState m.reception .locked
      | .locked => c.setMember { m with timing := some t, run := [] }
      | .imaging => c
    else c

/-- LOCKED_NOTICE (R11): the oldest LOCKED notice in flight to the channel is taken. -/
def execLockedNotice (ch : Chan) (s : State) : Host.Outcome State Fault Refusal :=
  .next <| s.live fun s =>
    match (s.chan ch).lockedNotices with
    | [] => s
    | n :: rest => s.updChan ch fun c => ({ c with lockedNotices := rest }).takeLocked s.clock n

/-- A channel takes its first-row assignment: it enters IMAGING, and forms the row at once if its end has been reached,
or ends FULL (R13, R14). -/
def Channel.takeRow (ch : Chan) (next : Nat) (n : Assignment) (c : Channel) : Channel :=
  match c.member with
  | none => c
  | some m =>
    if m.reception = n.reception ∧ m.phase ≠ .imaging then
      let m1 := { m with
        phase := .imaging, run := [], listen := none, lost := 0, row := n.row, rowStart := n.start,
        markers := [], toneEnds := [] }
      let c1 := (c.setMember m1).tellState m.reception .imaging
      if m.height ≤ n.row then c1.endMember .full else c1.reach ch next
    else c

/-- FIRST_ROW_ASSIGNMENT (R13): the oldest assignment in flight to the channel is taken. -/
def execFirstRowAssignment (ch : Chan) (s : State) : Host.Outcome State Fault Refusal :=
  .next <| s.live fun s =>
    match (s.chan ch).assignments with
    | [] => s
    | n :: rest => s.updChan ch fun c => ({ c with assignments := rest }).takeRow ch (s.clock / Config.fine) n

/-- END_ORDER (R18): the oldest end order in flight to the channel is taken. -/
def execEndOrder (ch : Chan) (s : State) : Host.Outcome State Fault Refusal :=
  .next <| s.live fun s =>
    match (s.chan ch).endOrders with
    | [] => s
    | o :: rest => s.updChan ch fun c => ({ c with endOrders := rest }).obeyEnd o

/-- TUNE_MESSAGE_SENT (R19). -/
def execTuneMessageSent (ch : Chan) (s : State) : Host.Outcome State Fault Refusal :=
  .next <| s.live fun s => s.updChan ch fun c => { c with tune := c.tune.sent }

/-! ### CHAN commands -/

/-- A configuration command, its arguments judged: refused with BAD_ARG, refused with ACTIVE, or held (R2). -/
def configure (setting : Option (Chan × (ChanConfig → ChanConfig))) (s : State) : State × Answer :=
  match setting with
  | none => (s, .error .badArg)
  | some (ch, f) =>
    if (s.chan ch).member.isSome then (s, .error .active)
    else (s.updChan ch fun c => { c with cfg := f c.cfg }, .ok)

/-- CHAN.TONES ch,black,white (R21). -/
def chanTones (args : List Text) (s : State) : State × Answer :=
  match args with
  | [c, b, w] =>
    configure
      (match chan? c, clamped? 300 3400 1500 b, clamped? 300 3400 2300 w with
        | some ch, some black, some white =>
          if black + 200 ≤ white then some (ch, fun cfg => { cfg with black := black, white := white }) else none
        | _, _, _ => none) s
  | _ => (s, .error .syntaxError)

/-- CHAN_TONES (R21). -/
def execChanTones (l : LineId) (args : List Text) (s : State) : Host.Outcome State Fault Refusal :=
  .next (s.command l .chanTones args (chanTones args))

/-- The sense of a word (R22). -/
def sense? (t : Text) : Option Sense :=
  if t = ascii "NORM" then some .norm else if t = ascii "INV" then some .inv else none

/-- CHAN.SENSE ch,NORM|INV (R22). -/
def chanSense (args : List Text) (s : State) : State × Answer :=
  match args with
  | [c, v] =>
    configure
      (match chan? c, sense? v with
        | some ch, some x => some (ch, fun cfg => { cfg with sense := x })
        | _, _ => none) s
  | _ => (s, .error .syntaxError)

/-- CHAN_SENSE (R22). -/
def execChanSense (l : LineId) (args : List Text) (s : State) : Host.Outcome State Fault Refusal :=
  .next (s.command l .chanSense args (chanSense args))

/-- CHAN.SQUELCH ch,level (R22). -/
def chanSquelch (args : List Text) (s : State) : State × Answer :=
  match args with
  | [c, v] =>
    configure
      (match chan? c, clamped? 0 32767 800 v with
        | some ch, some x => some (ch, fun cfg => { cfg with squelch := x })
        | _, _ => none) s
  | _ => (s, .error .syntaxError)

/-- CHAN_SQUELCH (R22). -/
def execChanSquelch (l : LineId) (args : List Text) (s : State) : Host.Outcome State Fault Refusal :=
  .next (s.command l .chanSquelch args (chanSquelch args))

/-- CHAN.LOST ch,limit (R22). -/
def chanLost (args : List Text) (s : State) : State × Answer :=
  match args with
  | [c, v] =>
    configure
      (match chan? c, clamped? 1 255 40 v with
        | some ch, some x => some (ch, fun cfg => { cfg with lost := x })
        | _, _ => none) s
  | _ => (s, .error .syntaxError)

/-- CHAN_LOST (R22). -/
def execChanLost (l : LineId) (args : List Text) (s : State) : Host.Outcome State Fault Refusal :=
  .next (s.command l .chanLost args (chanLost args))

/-- CHAN.LOCK ch,count (R22). -/
def chanLock (args : List Text) (s : State) : State × Answer :=
  match args with
  | [c, v] =>
    configure
      (match chan? c, clamped? 4 16 8 v with
        | some ch, some x => some (ch, fun cfg => { cfg with lock := x })
        | _, _ => none) s
  | _ => (s, .error .syntaxError)

/-- CHAN_LOCK (R22). -/
def execChanLock (l : LineId) (args : List Text) (s : State) : Host.Outcome State Fault Refusal :=
  .next (s.command l .chanLock args (chanLock args))

/-- The seconds left on a listen timer, rounded up (R23). -/
def secondsLeft (expiry idx : Nat) : Nat :=
  (expiry - idx + (Config.samplesPerSecond - 1)) / Config.samplesPerSecond

/-- The answer of CHAN.STATE? (R23, R212). -/
def Channel.stateText (idx : Nat) (c : Channel) : Text :=
  let head : List Text :=
    match c.member with
    | none => [ascii "IDLE", ascii "-", ascii "-", ascii "-", ascii "0", ascii "-"]
    | some m =>
      [ phaseText m.phase,
        (match m.phase with
          | .collecting => dec m.run.length
          | .locked => ascii "LOCKED"
          | _ => ascii "-"),
        dec m.reception,
        (if m.phase = .imaging then dec m.row else ascii "-"),
        dec m.lost,
        orDash (fun e => dec (secondsLeft e idx)) m.listen ]
  fields (head ++
    [dec c.cfg.black, dec c.cfg.white, senseText c.cfg.sense, dec c.cfg.squelch, dec c.cfg.lost, dec c.cfg.lock])

/-- CHAN.STATE? ch (R23). -/
def chanState (args : List Text) (s : State) : State × Answer :=
  match args with
  | [c] =>
    match chan? c with
    | some ch => (s, .values ((s.chan ch).stateText (s.clock / Config.fine)))
    | none => (s, .error .badArg)
  | _ => (s, .error .syntaxError)

/-- CHAN_STATE (R23). -/
def execChanState (l : LineId) (args : List Text) (s : State) : Host.Outcome State Fault Refusal :=
  .next (s.command l .chanState args (chanState args))

/-- CHAN.ABORT ch (R24). -/
def chanAbort (args : List Text) (s : State) : State × Answer :=
  match args with
  | [c] =>
    match chan? c with
    | some ch => (s.updChan ch (Channel.endMember .aborted), .ok)
    | none => (s, .error .badArg)
  | _ => (s, .error .syntaxError)

/-- CHAN_ABORT (R24). -/
def execChanAbort (l : LineId) (args : List Text) (s : State) : Host.Outcome State Fault Refusal :=
  .next (s.command l .chanAbort args (chanAbort args))

end Sys2Proof.Machine
end

