-- ==== Sys2Proof/Machine/Receptions.lean ====
section
/-! DEFINITION. The reception manager: line timing of a reception, its members, the start and the end of a reception,
and the RECV commands (02_phasing_and_line_timing.md, 06_receptions.md). -/

namespace Sys2Proof.Machine

/-! ### Members of a record -/

/-- A change to the member entry of a channel. -/
def Reception.updMember (r : Reception) (ch : Chan) (f : Member → Member) : Reception :=
  { r with members := r.members.map fun m => if m.chan = ch then f m else m }

/-- The member entry of a channel, if it has one. -/
def Reception.memberOf (r : Reception) (ch : Chan) : Option Member := r.members.find? fun m => m.chan == ch

/-- An active member is one whose end cause is absent (R3). -/
def Member.active (m : Member) : Bool := m.cause.isNone

/-- The channels of the active members. -/
def Reception.activeChans (r : Reception) : List Chan := (r.members.filter Member.active).map Member.chan

/-- The table index and the record of a number, if the record is OPEN and the channel is an active member of it. A member is
active until the manager has taken its end notice, whatever its channel does meanwhile: the model's choice, by which a report
or notice that the channel sent before it ended is used (log entry 38). -/
def State.openMember (s : State) (n : Nat) (ch : Chan) : Option (Nat × Reception × Member) :=
  match s.findRec n with
  | none => none
  | some k =>
    match s.reception k with
    | none => none
    | some r =>
      match r.memberOf ch with
      | none => none
      | some m => if r.isOpen && m.active then some (k, r, m) else none

/-! ### State notices (R113) -/

/-- The manager takes a state notice: the mirror follows it, but for what the manager sets itself (R113; log entry 4). -/
def State.noteState (s : State) (ch : Chan) (n : StateNotice) : State :=
  match s.openMember n.reception ch with
  | none => s
  | some (k, _, m) =>
    if m.mirror = .imaging then s
    else s.updRec k fun r => r.updMember ch fun x => { x with mirror := n.mirror }

/-- STATE_NOTICE (R113): the oldest state notice of the channel in flight is taken. -/
def execStateNotice (ch : Chan) (s : State) : Host.Outcome State Fault Refusal :=
  .next <| s.live fun s =>
    match (s.chan ch).stateNotices with
    | [] => s
    | n :: rest => (s.updChan ch fun c => { c with stateNotices := rest }).noteState ch n

/-! ### Lock and drift (R27 to R31) -/

/-- A quotient of integers rounded half away from zero, then clamped to -300..+300 (R28). -/
def learnedDrift (delta : Int) (d : Nat) : Int :=
  let rounded : Int :=
    if 0 ≤ delta then ((2 * delta.toNat * 1000000 + d) / (2 * d) : Nat)
    else -((2 * (-delta).toNat * 1000000 + d) / (2 * d) : Nat)
  clampInt (-300) 300 rounded

/-- The drift of a lock run of nominal period `p` (R28, R29). -/
def lockDrift (mode : Drift) (p : Nat) (run : List Nat) : Int :=
  match mode with
  | .fixed d => d
  | .learn =>
    let nominal := (run.length - 1) * p
    learnedDrift (((run.getLast?).getD 0 : Int) - ((run.head?).getD 0 : Int) - (nominal : Int)) nominal

/-- The effective period in fine units (R30). -/
def effectivePeriod (p : Nat) (d : Int) : Nat := p * Config.fine * (1000000 + d).toNat / 1000000

/-- The timing that a lock run sets (R27 to R30). -/
def lockTiming (r : Reception) (run : List Nat) : Timing :=
  let p := nominalPeriod r.lpm
  let d := lockDrift r.drift p run
  .locked d (effectivePeriod p d) ((run.getLast?).getD 0 * Config.fine)

/-- The LOCKED notice is sent to every active member of a record (R31). -/
def State.sendLocked (s : State) (r : Reception) (peff ref : Nat) : State :=
  s.mapChans fun ch c =>
    if r.activeChans.contains ch then { c with lockedNotices := c.lockedNotices ++ [⟨r.number, ref, peff⟩] } else c

/-- The manager takes a lock report (R27). -/
def State.noteLock (s : State) (ch : Chan) (n : LockReport) : State :=
  match s.openMember n.reception ch with
  | none => s
  | some (k, r, _) =>
    match r.timing, lockTiming r n.run with
    | .untimed, .locked d peff ref =>
      (s.updRec k fun x => { x with timing := .locked d peff ref }).sendLocked r peff ref
    | _, _ => s

/-- LOCK_REPORT (R27): the oldest lock report of the channel in flight is taken. -/
def execLockReport (ch : Chan) (s : State) : Host.Outcome State Fault Refusal :=
  .next <| s.live fun s =>
    match (s.chan ch).lockReports with
    | [] => s
    | n :: rest => (s.updChan ch fun c => { c with lockReports := rest }).noteLock ch n

/-! ### Period reports (R33 to R37) -/

/-- The manager assigns a member its first row (R35, R37). -/
def State.assignRow (s : State) (k : Nat) (ch : Chan) (number row start : Nat) : State :=
  (s.updRec k fun r => r.updMember ch fun m =>
      { m with firstRow := some row, mirror := .imaging, mark := none }).updChan ch fun c =>
    { c with assignments := c.assignments ++ [⟨number, row, start⟩] }

/-- A report that assigns no row sets the sender's last-marker mark (R33). -/
def State.setMark (s : State) (k : Nat) (ch : Chan) (marker : Bool) : State :=
  s.updRec k fun r => r.updMember ch fun m => { m with mark := some marker }

/-- The conditions of anchoring (R34). -/
def anchors (mark : Option Bool) (n : PeriodReport) : Bool := (mark == some true) && n.carrier && !n.marker

/-- The conditions a report itself must meet for borrowed timing (R37). -/
def borrows (n : PeriodReport) : Bool := n.carrier && !n.marker && !n.tone

/-- The manager takes a period report (R33). -/
def State.notePeriod (s : State) (ch : Chan) (n : PeriodReport) : State :=
  match s.openMember n.reception ch with
  | none => s
  | some (k, r, m) =>
    if m.mirror = .imaging then s
    else
      match r.timing with
      | .untimed => s
      | .locked d peff ref =>
        if anchors m.mark n then
          (s.updRec k fun x => { x with timing := .anchored d peff ref (ref + n.period * peff) }).assignRow
            k ch r.number 0 (ref + n.period * peff)
        else s.setMark k ch n.marker
      | .anchored _ peff ref phase0 =>
        let start := ref + n.period * peff
        if phase0 ≤ start ∧ borrows n then s.assignRow k ch r.number ((start - phase0) / peff) start
        else s.setMark k ch n.marker

/-- PERIOD_REPORT (R33): the oldest period report of the channel in flight is taken. -/
def execPeriodReport (ch : Chan) (s : State) : Host.Outcome State Fault Refusal :=
  .next <| s.live fun s =>
    match (s.chan ch).periodReports with
    | [] => s
    | n :: rest => (s.updChan ch fun c => { c with periodReports := rest }).notePeriod ch n

/-! ### Counts of lines (R71) -/

/-- LINES_STORED_NOTICE (R71): a notice in flight that names the reception is taken. -/
def execLinesStoredNotice (n : Nat) (s : State) : Host.Outcome State Fault Refusal :=
  .next <| s.live fun s =>
    if s.storedNotices.contains n then
      let s' := { s with storedNotices := s.storedNotices.erase n }
      match s.findRec n with
      | some k => s'.updRec k fun r => { r with stored := countUp r.stored }
      | none => s'
    else s

/-- LINES_NOT_STORED_NOTICE (R71): a notice in flight that names the reception is taken. -/
def execLinesNotStoredNotice (n : Nat) (s : State) : Host.Outcome State Fault Refusal :=
  .next <| s.live fun s =>
    if s.notStoredNotices.contains n then
      let s' := { s with notStoredNotices := s.notStoredNotices.erase n }
      match s.findRec n with
      | some k => s'.updRec k fun r => { r with notStored := countUp r.notStored }
      | none => s'
    else s

/-! ### Ending (R120 to R123) -/

/-- A line whose RECV.STOP waits for reception `n` is answered OK (R131; log entry 14). -/
def Line.settleStop (n : Nat) (x : Line) : Line :=
  match x.interp with
  | .stopping m h =>
    if m = n then { x with interp := h.goOn, tx := x.tx.send (ascii "OK" ++ crlf) } else x
  | _ => x

/-- The reception of table index `k` ends: ENDED, its timer stopped, its unbind sent (R121). -/
def State.endReception (s : State) (k : Nat) (r : Reception) : State :=
  { s.updRec k (fun x => { x with isOpen := false, endSecond := some s.runSeconds, timer := none }) with
    unbinds := s.unbinds ++ r.binding.toList }.mapLines (Line.settleStop r.number)

/-- A member entry once its end notice is taken (R120). -/
def Member.ended (n : EndNotice) (m : Member) : Member :=
  { m with
    cause := some n.cause, mirror := .ended, mark := none
    firstRow := if n.imaged then m.firstRow else none }

/-- The manager takes an end notice (R120). -/
def State.noteEnd (s : State) (ch : Chan) (n : EndNotice) : State :=
  match s.openMember n.reception ch with
  | none => s
  | some (k, r, _) =>
    let r' := r.updMember ch (Member.ended n)
    let s' := s.updRec k fun x => x.updMember ch (Member.ended n)
    if r'.activeChans = [] then s'.endReception k r' else s'

/-- END_NOTICE (R120): the oldest end notice of the channel in flight is taken. -/
def execEndNotice (ch : Chan) (s : State) : Host.Outcome State Fault Refusal :=
  .next <| s.live fun s =>
    match (s.chan ch).endNotices with
    | [] => s
    | n :: rest => (s.updChan ch fun c => { c with endNotices := rest }).noteEnd ch n

/-- An end order is sent to every active member of a record (R122, R123). -/
def State.orderEnd (s : State) (r : Reception) (cause : EndCause) : State :=
  s.mapChans fun ch c =>
    if r.activeChans.contains ch then { c with endOrders := c.endOrders ++ [⟨r.number, cause⟩] } else c

/-- DURATION_EXPIRY (R122): taken when run seconds have reached the timer of the OPEN reception of that number. -/
def execDurationExpiry (n : Nat) (s : State) : Host.Outcome State Fault Refusal :=
  .next <| s.live fun s =>
    match s.findRec n with
    | none => s
    | some k =>
      match s.reception k with
      | none => s
      | some r =>
        match r.timer with
        | none => s
        | some t =>
          if r.isOpen ∧ t ≤ s.runSeconds then
            (s.updRec k fun x => { x with timer := none }).orderEnd r .expired
          else s

/-- Every end notice in flight of reception `n` from one channel is taken. -/
def State.drainEnds (s : State) (n : Nat) (ch : Chan) : State :=
  let mine := (s.chan ch).endNotices.filter fun x => decide (x.reception = n)
  mine.foldl (fun acc x => acc.noteEnd ch x)
    (s.updChan ch fun c => { c with endNotices := c.endNotices.filter fun x => !decide (x.reception = n) })

/-- A reception's active members end ABORTED and the reception ends, all within one request (R95, R127). -/
def State.abortWhole (s : State) (n : Nat) : State :=
  Chan.all.foldl (fun acc ch => acc.drainEnds n ch) (s.mapChans fun _ c => c.obeyEnd ⟨n, .aborted⟩)

/-- Every unbind in flight that names an entry is taken. -/
def State.drainUnbinds (s : State) (i : Nat) : State :=
  (s.unbinds.filter fun j => decide (j = i)).foldl (fun acc j => acc.unbindSheet j)
    { s with unbinds := s.unbinds.filter fun j => !decide (j = i) }

/-- The numbers of the OPEN receptions bound to an entry, in table order. -/
def State.openOn (s : State) (i : Nat) : List Nat :=
  s.recs.filterMap fun e =>
    match e with
    | some r => if r.isOpen ∧ r.binding = some i then some r.number else none
    | none => none

/-- Every OPEN reception bound to an entry is ended ABORTED, and its sheet leaves FILLING (R95). -/
def State.abortOn (s : State) (i : Nat) : State :=
  ((s.openOn i).foldl (fun acc n => acc.abortWhole n) s).drainUnbinds i

/-! ### Starting (R114 to R118) -/

/-- The ENDED record with the smallest end run second from index `k` on, with that second; between equals the lower
index (R116). -/
def oldestEnded : Nat → List (Option Reception) → Option (Nat × Nat)
  | _, [] => none
  | k, e :: rest =>
    let later := oldestEnded (k + 1) rest
    match e with
    | some r =>
      if r.isOpen then later
      else
        let here := (k, r.endSecond.getD 0)
        match later with
        | none => some here
        | some y => if y.2 < here.2 then some y else some here
    | none => later

/-- The table index of the record a start takes (R116). -/
def State.chooseRecord (s : State) : Nat :=
  match s.recs.findIdx? Option.isNone with
  | some k => k
  | none => ((oldestEnded 0 s.recs).map Prod.fst).getD 0

/-- The numbers held by the records other than that of index `k`. -/
def State.heldNumbers (s : State) (k : Nat) : List Nat :=
  ((s.recs.set k none).filterMap id).map Reception.number

/-- The number a start that takes record `k` issues (R112). -/
def State.chooseNumber (s : State) (k : Nat) : Nat :=
  (((List.range 8).map fun j => (s.lastNumber + 1 + j) % 256).find? fun n => !(s.heldNumbers k).contains n).getD
    ((s.lastNumber + 1) % 256)

/-- The tune frequency a start gives a channel (R129). -/
def StartSpec.freqOf (sp : StartSpec) (ch : Chan) : Option Nat :=
  match sp.freqs with
  | none => none
  | some fs => ((sp.chans.zip fs).find? fun p => p.1 == ch).map Prod.snd

/-- The channels that join, in the order of their numbers (R118). -/
def joinOrder (joiners : List Chan) : List Chan := Chan.all.filter joiners.contains

/-- The record of a reception that has just started (R111). -/
def Reception.fresh (sp : StartSpec) (number : Nat) (origin : Origin) (duration : Option Nat) (joiners : List Chan)
    (entry : Nat) (name : Text) (now : Nat) : Reception :=
  { number := number, isOpen := true, origin := origin, name := name, binding := some entry, chart := sp.chart,
    width := sp.width, lpm := sp.lpm, drift := sp.drift, margin := sp.margin, qmin := sp.qmin, listen := sp.listen,
    window := sp.window, duration := duration, timer := duration.map fun d => now + d * 60, timing := .untimed,
    members := (joinOrder joiners).map fun ch =>
      { chan := ch, mirror := .listening, freq := sp.freqOf ch, firstRow := none, cause := none, mark := none },
    startSecond := now, endSecond := none, stored := 0, notStored := 0 }

/-- The manager takes every end notice in flight from a channel (R120). -/
def State.takeEnds (s : State) (ch : Chan) : State :=
  (s.chan ch).endNotices.foldl (fun acc n => acc.noteEnd ch n) (s.updChan ch fun c => { c with endNotices := [] })

/-- A start from its third step on: the record, the sheet, the members; the number issued, or none for NO_SHEET
(R116 to R118). A channel that joins is an active member of no other OPEN reception (R3, R110), so its end notice has been
taken by then; a start that fails with NO_SHEET takes none, since it changes nothing but a reclaim (R128; the model's reading,
log entry 37). -/
def State.start (s0 : State) (sp : StartSpec) (origin : Origin) (duration : Option Nat) (joiners : List Chan) :
    State × Option Nat :=
  let bind (x : State) : State × Option Nat := x.bindSheet sp.name sp.chart sp.width sp.lpm sp.height sp.window
  let s := joiners.foldl State.takeEnds s0
  let k := s.chooseRecord
  let n := s.chooseNumber k
  let s1 := (bind s).1
  match (bind s).2 with
  | none => ((bind s0).1, none)
  | some i =>
    match s1.sheet i with
    | none => ((bind s0).1, none)
    | some sh =>
      let s2 : State :=
        { s1 with
          recs := s1.recs.set k (some (.fresh sp n origin duration joiners i sh.name s1.runSeconds))
          lastNumber := n }
      (s2.mapChans fun ch c =>
        if joiners.contains ch then
          c.join n sp.lpm sp.width sh.height sp.listen (sp.freqOf ch) (s.clock / Config.fine)
        else c, some n)

/-- The channels of a list that are IDLE (R115). -/
def State.idle (s : State) (cs : List Chan) : List Chan := cs.filter fun ch => (s.chan ch).member.isNone

/-! ### RECV commands -/

/-- RECV.NOW (R128 to R130, R115). -/
def recvNow (l : LineId) (args : List Text) (s : State) : State × Answer :=
  if args.length < 6 ∨ 12 < args.length then (s, .error .syntaxError)
  else
    match startSpec? args with
    | none => (s, .error .badArg)
    | some sp =>
      if s.idle sp.chans = sp.chans then
        let r := s.start sp (.manual l) none sp.chans
        match r.2 with
        | some _ => (r.1, .ok)
        | none => (r.1, .error .noSheet)
      else (s, .error .busy)

/-- RECV_NOW (R128). -/
def execRecvNow (l : LineId) (args : List Text) (s : State) : Host.Outcome State Fault Refusal :=
  .next (s.command l .recvNow args (recvNow l args))

/-- The record of a reception number argument: none for BAD_ARG, none inside for NO_ENTRY (R131, R132). -/
def State.recordArg (s : State) (t : Text) : Option (Option (Nat × Reception)) :=
  match numberIn? 0 255 t with
  | none => none
  | some n =>
    match s.findRec n with
    | none => some none
    | some k =>
      match s.reception k with
      | none => some none
      | some r => some (some (k, r))

/-- RECV.STOP n (R131). -/
def recvStop (args : List Text) (s : State) : State × Answer :=
  match args with
  | [t] =>
    match s.recordArg t with
    | none => (s, .error .badArg)
    | some none => (s, .error .noEntry)
    | some (some (_, r)) => if r.isOpen then (s.orderEnd r .aborted, .stopping r.number) else (s, .ok)
  | _ => (s, .error .syntaxError)

/-- RECV_STOP (R131). -/
def execRecvStop (l : LineId) (args : List Text) (s : State) : Host.Outcome State Fault Refusal :=
  .next (s.command l .recvStop args (recvStop args))

/-- The drift, effective period, reference and phase0 of a timing, each "-" while absent (R132). -/
def timingFields : Timing → List Text
  | .untimed => [ascii "-", ascii "-", ascii "-", ascii "-"]
  | .locked d peff ref => [signed d, dec peff, dec ref, ascii "-"]
  | .anchored d peff ref phase0 => [signed d, dec peff, dec ref, dec phase0]

/-- A member item of RECV.STATUS? (R212). -/
def memberItem (m : Member) : Text :=
  fields [chanText m.chan, mirrorText m.mirror, orDash freqText m.freq, orDash dec m.firstRow,
    orDash causeText m.cause]

/-- OPEN or ENDED. -/
def openText (isOpen : Bool) : Text := if isOpen then ascii "OPEN" else ascii "ENDED"

/-- The answer of RECV.STATUS? (R132, R212). -/
def Reception.statusText (k : Nat) (r : Reception) : Text :=
  fields
    ([dec r.number, dec k, openText r.isOpen, originText r.origin, r.name, orDash dec r.binding, dec r.chart,
      dec r.width, dec r.lpm, driftText r.drift, dec r.margin, dec r.qmin, dec r.listen, dec r.window,
      orDash dec r.duration, timingText r.timing] ++ timingFields r.timing ++
     [dec r.startSecond, orDash dec r.endSecond, dec r.stored, dec r.notStored]) ++
  items (r.members.map memberItem)

/-- RECV.STATUS? n (R132). -/
def recvStatus (args : List Text) (s : State) : State × Answer :=
  match args with
  | [t] =>
    match s.recordArg t with
    | none => (s, .error .badArg)
    | some none => (s, .error .noEntry)
    | some (some (k, r)) => (s, .values (r.statusText k))
  | _ => (s, .error .syntaxError)

/-- RECV_STATUS (R132). -/
def execRecvStatus (l : LineId) (args : List Text) (s : State) : Host.Outcome State Fault Refusal :=
  .next (s.command l .recvStatus args (recvStatus args))

/-- An item of RECV.LIST? (R133, R212). -/
def Reception.listItem (k : Nat) (r : Reception) : Text :=
  fields [dec k, dec r.number, openText r.isOpen, originText r.origin, r.name, timingText r.timing,
    dec r.startSecond, orDash dec r.endSecond,
    plusList (r.members.map fun m => chanText m.chan ++ ascii ":" ++ mirrorText m.mirror)]

/-- The answer of RECV.LIST? (R133). -/
def State.recvListText (s : State) : Text :=
  items (s.recs.zipIdx.filterMap fun p => p.1.map fun r => r.listItem p.2)

/-- RECV_LIST (R133). -/
def execRecvList (l : LineId) (args : List Text) (s : State) : Host.Outcome State Fault Refusal :=
  .next (s.command l .recvList args (bareQuery args s.recvListText))

end Sys2Proof.Machine
end

