-- ==== Sys2Proof/Machine/Sheets.lean ====
section
/-! DEFINITION. The SHEET commands (R102 to R109). -/

namespace Sys2Proof.Machine

/-- SHEET.DEFINE name,chart,width,lpm,height (R102). -/
def sheetDefine (args : List Text) (s : State) : State × Answer :=
  match args with
  | [nm, ct, wd, rate, ht] =>
    match name? nm, chart? ct, width? wd, lpm? rate, height? ht with
    | some n, some c, some w, some r, some h =>
      if (s.findSheet n).isSome then (s, .error .nameExists)
      else
        match s.freeEntry with
        | none => (s, .error .dirFull)
        | some i => (s.setSheet i (.fresh n c w r h .defined .defined 0 s.runSeconds), .ok)
    | _, _, _, _, _ => (s, .error .badArg)
  | _ => (s, .error .syntaxError)

/-- SHEET_DEFINE (R102). -/
def execSheetDefine (l : LineId) (args : List Text) (s : State) : Host.Outcome State Fault Refusal :=
  .next (s.command l .sheetDefine args (sheetDefine args))

/-- The FORCE argument: absent, FORCE, or another word, which is refused (R103). -/
def force? : Option Text → Option Bool
  | none => some false
  | some t => if t = ascii "FORCE" then some true else none

/-- The deletion of one sheet, with FORCE of a FILLING one: the receptions aborted, then the sheet in its new state
deleted (R95, R103). -/
def State.deleteForce (s : State) (i : Nat) : State := (s.abortOn i).deleteSheet i

/-- SHEET.DELETE name[,FORCE] (R103). -/
def sheetDelete (l : LineId) (args : List Text) (s : State) : State × Answer :=
  match args with
  | nm :: opt =>
    if 1 < opt.length then (s, .error .syntaxError)
    else
      match sheetRef? nm, force? opt[0]? with
      | some r, some force =>
        match s.resolve l r with
        | none => (s, .error .noSheet)
        | some i =>
          match s.sheet i with
          | none => (s, .error .noSheet)
          | some sh =>
            if sh.state = .filling then
              if force then (s.deleteForce i, .ok) else (s, .error .sheetActive)
            else (s.deleteSheet i, .ok)
      | _, _ => (s, .error .badArg)
  | [] => (s, .error .syntaxError)

/-- Whether the arguments are those of SHEET.DELETE ALL (R104). -/
def deletesAll (args : List Text) : Bool := args.head? == some (ascii "ALL")

/-- SHEET_DELETE (R103): the form that names one sheet. -/
def execSheetDelete (l : LineId) (args : List Text) (s : State) : Host.Outcome State Fault Refusal :=
  .next (if deletesAll args then s else s.command l .sheetDelete args (sheetDelete l args))

/-- One entry's part of SHEET.DELETE ALL (R104). -/
def State.deleteEntry (force : Bool) (s : State) (i : Nat) : State :=
  match s.sheet i with
  | none => s
  | some sh =>
    if sh.state = .filling then (if force then s.deleteForce i else s) else s.deleteSheet i

/-- SHEET.DELETE ALL[,FORCE] (R104): the directory is worked through from index 0 to 23. -/
def sheetDeleteAll (args : List Text) (s : State) : State × Answer :=
  match args with
  | _ :: opt =>
    if 1 < opt.length then (s, .error .syntaxError)
    else
      match force? opt[0]? with
      | some force => ((List.range s.dir.length).foldl (State.deleteEntry force) s, .ok)
      | none => (s, .error .badArg)
  | [] => (s, .error .syntaxError)

/-- SHEET_DELETE_ALL (R104): the form that names ALL. -/
def execSheetDeleteAll (l : LineId) (args : List Text) (s : State) : Host.Outcome State Fault Refusal :=
  .next (if deletesAll args then s.command l .sheetDelete args (sheetDeleteAll args) else s)

/-- SHEET.KEEP name,ON|OFF (R105). -/
def sheetKeep (l : LineId) (args : List Text) (s : State) : State × Answer :=
  match args with
  | [nm, v] =>
    match sheetRef? nm, onOff? v with
    | some r, some on =>
      match s.resolve l r with
      | none => (s, .error .noSheet)
      | some i =>
        match s.sheet i with
        | none => (s, .error .noSheet)
        | some sh =>
          if sh.state = .retiring then (s, .error .retiring)
          else (s.updSheet i fun x => { x with kept := on }, .ok)
    | _, _ => (s, .error .badArg)
  | _ => (s, .error .syntaxError)

/-- SHEET_KEEP (R105). -/
def execSheetKeep (l : LineId) (args : List Text) (s : State) : Host.Outcome State Fault Refusal :=
  .next (s.command l .sheetKeep args (sheetKeep l args))

/-- An item of SHEET.CATALOG? (R106, R212). -/
def Sheet.catalogItem (i : Nat) (sh : Sheet) : Text :=
  fields [dec i, sh.name, dec sh.chart, dec sh.width, dec sh.lpm, dec sh.height, sheetStateText sh.state,
    onOff sh.kept, dec sh.seq, dec sh.filledRows, dec sh.writers, dec sh.readers]

/-- The answer of SHEET.CATALOG? (R106). -/
def State.catalogText (s : State) : Text :=
  items (s.dir.zipIdx.filterMap fun p => p.1.map fun sh => sh.catalogItem p.2)

/-- SHEET_CATALOG (R106). -/
def execSheetCatalog (l : LineId) (args : List Text) (s : State) : Host.Outcome State Fault Refusal :=
  .next (s.command l .sheetCatalog args (bareQuery args s.catalogText))

/-- The answer of SHEET.INFO? (R107, R212). -/
def Sheet.infoText (i : Nat) (sh : Sheet) : Text :=
  fields [dec i, sh.name, dec sh.chart, dec sh.width, dec sh.lpm, dec sh.height, sheetStateText sh.state,
    sheetOriginText sh.origin, onOff sh.kept, dec sh.seq, dec sh.filledRows, dec sh.openedAt,
    orDash dec sh.completedAt, dec sh.writers, dec sh.readers, dec sh.bands.length]

/-- SHEET.INFO? name (R107). -/
def sheetInfo (l : LineId) (args : List Text) (s : State) : State × Answer :=
  match args with
  | [nm] =>
    match sheetRef? nm with
    | none => (s, .error .badArg)
    | some r =>
      match s.resolve l r with
      | none => (s, .error .noSheet)
      | some i =>
        match s.sheet i with
        | none => (s, .error .noSheet)
        | some sh => (s, .values (sh.infoText i))
  | _ => (s, .error .syntaxError)

/-- SHEET_INFO (R107). -/
def execSheetInfo (l : LineId) (args : List Text) (s : State) : Host.Outcome State Fault Refusal :=
  .next (s.command l .sheetInfo args (sheetInfo l args))

/-- The answer of SHEET.FREE? (R108). -/
def State.freeText (s : State) : Text := fields [dec s.freeBands.length, dec (s.dir.countP Option.isNone)]

/-- SHEET_FREE (R108). -/
def execSheetFree (l : LineId) (args : List Text) (s : State) : Host.Outcome State Fault Refusal :=
  .next (s.command l .sheetFree args (bareQuery args s.freeText))

/-- SHEET.SELECT name|AUTO (R109). -/
def sheetSelect (l : LineId) (args : List Text) (s : State) : State × Answer :=
  match args with
  | [t] =>
    if t = ascii "AUTO" then (s.updLine l fun x => { x with selection := .auto }, .ok)
    else if validName t then (s.updLine l fun x => { x with selection := .named t }, .ok)
    else (s, .error .badArg)
  | _ => (s, .error .syntaxError)

/-- SHEET_SELECT (R109). -/
def execSheetSelect (l : LineId) (args : List Text) (s : State) : Host.Outcome State Fault Refusal :=
  .next (s.command l .sheetSelect args (sheetSelect l args))

/-- The answer of SHEET.SELECT? (R109, R98). -/
def State.selectText (s : State) (l : LineId) : Text :=
  match (s.line l).selection with
  | .named n => n
  | .auto => fields [ascii "AUTO", orDash Sheet.name (s.latest.bind s.sheet)]

/-- SHEET_SELECT_QUERY (R109). -/
def execSheetSelectQuery (l : LineId) (args : List Text) (s : State) : Host.Outcome State Fault Refusal :=
  .next (s.command l .sheetSelectQuery args (bareQuery args (s.selectText l)))

end Sys2Proof.Machine
end

