-- ==== Sys2Proof/Machine/Schedule.lean ====
section
/-! DEFINITION. Time of day and run seconds, the schedule table, the minute event, the schedule store, and the SCHED,
TIME and SYS.UPTIME? commands (07_schedule_and_time_of_day.md). -/

namespace Sys2Proof.Machine

/-! ### The clock (R134 to R137) -/

/-- The minute of the day (R134). -/
def TimeOfDay.minute (t : TimeOfDay) : Nat := t.hh * 60 + t.mm

/-- One second on (R134). -/
def TimeOfDay.next (t : TimeOfDay) : TimeOfDay :=
  if t.ss < 59 then { t with ss := t.ss + 1 }
  else if t.mm < 59 then ⟨t.hh, t.mm + 1, 0⟩
  else if t.hh < 23 then ⟨t.hh + 1, 0, 0⟩
  else ⟨0, 0, 0⟩

/-- RUN_SECOND (R134 to R136): the run seconds and a set time of day advance; from ss 59 to 00 a minute event is made
while the schedule runs. -/
def execRunSecond (s : State) : Host.Outcome State Fault Refusal :=
  .next <| s.live fun s =>
    match s.tod with
    | none => { s with runSeconds := s.runSeconds + 1 }
    | some t =>
      { s with
        runSeconds := s.runSeconds + 1
        tod := some t.next
        minuteEvents :=
          if t.next.ss = 0 ∧ s.schedRun then s.minuteEvents ++ [t.next.minute] else s.minuteEvents }

/-! ### Overlap and order of entries (R138, R139) -/

/-- Whether an entry occupies a minute of the day (R139). -/
def SchedEntry.occupies (e : SchedEntry) (m : Nat) : Bool := decide ((m + 1440 - e.start) % 1440 < e.duration)

/-- Two entries overlap: they share a channel and a minute (R139). Two stretches of the day share a minute exactly when
one of them holds the first minute of the other. -/
def SchedEntry.overlaps (x y : SchedEntry) : Bool :=
  (x.occupies y.start || y.occupies x.start) && x.spec.chans.any y.spec.chans.contains

/-- Whether an entry would overlap an enabled entry of a table (R139). -/
def overlapsEnabled (table : List SchedEntry) (e : SchedEntry) : Bool := table.any fun x => x.enabled && e.overlaps x

/-- Table order: by start minute, then by id (R138). -/
def SchedEntry.before (x y : SchedEntry) : Bool :=
  decide (x.start < y.start) || (decide (x.start = y.start) && decide (x.id < y.id))

/-- An entry is placed in table order (R138). -/
def insertEntry (e : SchedEntry) : List SchedEntry → List SchedEntry
  | [] => [e]
  | x :: rest => if e.before x then e :: x :: rest else x :: insertEntry e rest

/-- The entry of an id. -/
def State.findEntry (s : State) (id : Nat) : Option SchedEntry := s.sched.find? fun e => e.id == id

/-- A change to the entry of an id. -/
def State.updEntry (s : State) (id : Nat) (f : SchedEntry → SchedEntry) : State :=
  { s with sched := s.sched.map fun e => if e.id = id then f e else e }

/-! ### The minute event (R141 to R143) -/

/-- The start of a due entry against the channels as they stand, with its outcome (R115, R143). -/
def State.startEntry (s : State) (e : SchedEntry) : State × StartOutcome :=
  let joiners := s.idle e.spec.chans
  if joiners = [] then (s, .busy)
  else
    let r := s.start e.spec (.sched e.id) (some e.duration) joiners
    match r.2 with
    | some n => (r.1, .started n)
    | none => (r.1, .noSheet)

/-- Whether an outcome is a failed start. -/
def StartOutcome.failed : StartOutcome → Bool
  | .started _ => false
  | .busy => true
  | .noSheet => true

/-- One due entry: its start, its last outcome, RFAIL for a failure, and a ONCE entry disabled (R142). -/
def State.runEntry (s : State) (e : SchedEntry) : State :=
  let r := s.startEntry e
  let s1 := r.1.updEntry e.id fun x =>
    { x with outcome := some r.2, enabled := if x.rep = .once then false else x.enabled }
  if r.2.failed then s1.raiseAll .rfail else s1

/-- The enabled entries due at a minute, in table order (R141). -/
def State.due (s : State) (m : Nat) : List SchedEntry :=
  s.sched.filter fun e => e.enabled && decide (e.start = m)

/-- MINUTE_EVENT (R141): the oldest minute event in flight is taken whole; during a device reset it waits (R136). -/
def execMinuteEvent (s : State) : Host.Outcome State Fault Refusal :=
  .next <| s.live fun s =>
    if s.inReset then s
    else
      match s.minuteEvents with
      | [] => s
      | m :: rest => (s.due m).foldl State.runEntry { s with minuteEvents := rest }

/-! ### The schedule store (R145 to R148) -/

/-- An entry is well formed: every field lies in the range the table of R138 gives it. -/
def SchedEntry.wellFormed (e : SchedEntry) : Bool :=
  decide (1 ≤ e.id ∧ e.id ≤ 99) && decide (e.start < 1440) && decide (1 ≤ e.duration ∧ e.duration ≤ 180) &&
    e.spec.wellFormed

/-- An image is valid when its check value agrees with the entries it covers and every entry is well formed (R145). -/
def StoreImage.valid (x : StoreImage) : Bool :=
  decide (x.check = Config.imageCheck x.entries) && x.entries.all SchedEntry.wellFormed

/-- What the schedule store holds after a write that did not complete or whose read-back disagreed: an invalid image, of which
nothing else is fixed (R146, R147; log entry 22). -/
def StoreImage.damaged (snapshot : List SchedEntry) : StoreImage :=
  let left := Config.damagedImage snapshot
  if left.valid then { left with check := left.check + 1 } else left

/-- An entry as the image holds it: without its last outcome (R145). -/
def SchedEntry.stored (e : SchedEntry) : SchedEntry := { e with outcome := none }

/-- The issuing line of a write is released with the write's answer (R146, R163). -/
def Line.storeAnswer (agrees : Bool) (x : Line) : Line :=
  match x.interp with
  | .held h =>
    if agrees then { x with interp := h.goOn, tx := x.tx.send (ascii "OK" ++ crlf) }
    else { x with interp := .ready, tx := x.tx.send (errorText .storeFail h.taken ++ crlf) }
  | _ => x

/-- A write completes with its read-back (R146, R147). -/
def State.completeWrite (s : State) (w : StoreWrite) (agrees : Bool) : State :=
  let s1 : State := { s with writer := none, image := if agrees then .whole w.snapshot else .damaged w.snapshot }
  let s2 := match w.line with
    | some l => s1.updLine l (Line.storeAnswer agrees)
    | none => s1
  if agrees then s2 else s2.raiseAll .sched

/-- SCHED_STORE_COMPLETE (R146): the write in flight completes, its read-back agreeing or not; during a device reset the
completion waits until the reset is complete (R147). -/
def execSchedStoreComplete (agrees : Bool) (s : State) : Host.Outcome State Fault Refusal :=
  .next <| s.live fun s =>
    match s.writer with
    | none => s
    | some w =>
      if s.inReset then
        (match w.completed with
          | none => { s with writer := some { w with completed := some agrees } }
          | some _ => s)
      else s.completeWrite w agrees

/-! ### SCHED commands -/

/-- The entry of the arguments of SCHED.ADD, none for BAD_ARG (R149). -/
def schedEntry? (l : LineId) (args : List Text) : Option SchedEntry :=
  match args with
  | id :: start :: dur :: rep :: rest =>
    match numberIn? 1 99 id, minute? start, clamped? 1 180 30 dur, startSpec? rest with
    | some i, some m, some d, some sp =>
      if rep = ascii "DAILY" then some ⟨i, m, d, .daily, sp, true, l, none⟩
      else if rep = ascii "ONCE" then some ⟨i, m, d, .once, sp, true, l, none⟩
      else none
    | _, _, _, _ => none
  | _ => none

/-- SCHED.ADD (R149). -/
def schedAdd (l : LineId) (args : List Text) (s : State) : State × Answer :=
  if args.length < 10 ∨ 16 < args.length then (s, .error .syntaxError)
  else
    match schedEntry? l args with
    | none => (s, .error .badArg)
    | some e =>
      if (s.findEntry e.id).isSome then (s, .error .nameExists)
      else if Config.scheduleSize ≤ s.sched.length then (s, .error .schedFull)
      else if overlapsEnabled s.sched e then (s, .error .overlap)
      else ({ s with sched := insertEntry e s.sched }, .ok)

/-- SCHED_ADD (R149). -/
def execSchedAdd (l : LineId) (args : List Text) (s : State) : Host.Outcome State Fault Refusal :=
  .next (s.command l .schedAdd args (schedAdd l args))

/-- SCHED.DEL id|ALL (R150). -/
def schedDel (args : List Text) (s : State) : State × Answer :=
  match args with
  | [t] =>
    if t = ascii "ALL" then ({ s with sched := [] }, .ok)
    else
      match numberIn? 1 99 t with
      | none => (s, .error .badArg)
      | some i =>
        if (s.findEntry i).isSome then ({ s with sched := s.sched.filter fun e => !decide (e.id = i) }, .ok)
        else (s, .error .noEntry)
  | _ => (s, .error .syntaxError)

/-- SCHED_DEL (R150). -/
def execSchedDel (l : LineId) (args : List Text) (s : State) : Host.Outcome State Fault Refusal :=
  .next (s.command l .schedDel args (schedDel args))

/-- SCHED.ON id (R151). -/
def schedOn (args : List Text) (s : State) : State × Answer :=
  match args with
  | [t] =>
    match numberIn? 1 99 t with
    | none => (s, .error .badArg)
    | some i =>
      match s.findEntry i with
      | none => (s, .error .noEntry)
      | some e =>
        if e.enabled then (s, .ok)
        else if overlapsEnabled s.sched e then (s, .error .overlap)
        else (s.updEntry i fun x => { x with enabled := true }, .ok)
  | _ => (s, .error .syntaxError)

/-- SCHED_ON (R151). -/
def execSchedOn (l : LineId) (args : List Text) (s : State) : Host.Outcome State Fault Refusal :=
  .next (s.command l .schedOn args (schedOn args))

/-- SCHED.OFF id (R151). -/
def schedOff (args : List Text) (s : State) : State × Answer :=
  match args with
  | [t] =>
    match numberIn? 1 99 t with
    | none => (s, .error .badArg)
    | some i =>
      match s.findEntry i with
      | none => (s, .error .noEntry)
      | some _ => (s.updEntry i fun x => { x with enabled := false }, .ok)
  | _ => (s, .error .syntaxError)

/-- SCHED_OFF (R151). -/
def execSchedOff (l : LineId) (args : List Text) (s : State) : Host.Outcome State Fault Refusal :=
  .next (s.command l .schedOff args (schedOff args))

/-- An item of SCHED.LIST? (R152, R212). -/
def SchedEntry.item (e : SchedEntry) : Text :=
  fields [dec e.id, minuteText e.start, dec e.duration, repeatText e.rep, onOff e.enabled,
    plusList (e.spec.chans.map chanText), orDash (fun fs => plusList (fs.map freqText)) e.spec.freqs,
    dec e.spec.chart, e.spec.name, dec e.spec.width, dec e.spec.lpm, dec e.spec.height, driftText e.spec.drift,
    dec e.spec.margin, dec e.spec.qmin, dec e.spec.listen, dec e.spec.window, lineText e.line,
    orDash outcomeText e.outcome]

/-- The answer of SCHED.LIST? (R152). -/
def State.schedText (s : State) : Text :=
  fields [onOff s.schedRun, if s.writer.isSome then ascii "WRITING" else ascii "IDLE"] ++
    items (s.sched.map SchedEntry.item)

/-- SCHED_LIST (R152). -/
def execSchedList (l : LineId) (args : List Text) (s : State) : Host.Outcome State Fault Refusal :=
  .next (s.command l .schedList args (bareQuery args s.schedText))

/-- SCHED.RUN ON|OFF (R153). -/
def schedRunSet (args : List Text) (s : State) : State × Answer :=
  match args with
  | [t] =>
    match onOff? t with
    | some v => ({ s with schedRun := v }, .ok)
    | none => (s, .error .badArg)
  | _ => (s, .error .syntaxError)

/-- SCHED_RUN (R153). -/
def execSchedRun (l : LineId) (args : List Text) (s : State) : Host.Outcome State Fault Refusal :=
  .next (s.command l .schedRun args (schedRunSet args))

/-- SCHED.STORE (R145, R154). -/
def schedStore (l : LineId) (args : List Text) (s : State) : State × Answer :=
  match args with
  | [] =>
    match s.writer with
    | some _ => (s, .error .busy)
    | none =>
      ({ s with writer := some { snapshot := s.sched.map SchedEntry.stored, line := some l, completed := none } },
        .hold)
  | _ :: _ => (s, .error .syntaxError)

/-- SCHED_STORE (R154). -/
def execSchedStore (l : LineId) (args : List Text) (s : State) : Host.Outcome State Fault Refusal :=
  .next (s.command l .schedStore args (schedStore l args))

/-! ### TIME and SYS.UPTIME? -/

/-- TIME.SET hh:mm:ss (R137, R155). -/
def timeSet (args : List Text) (s : State) : State × Answer :=
  match args with
  | [t] =>
    match timeOfDay? t with
    | some v => ({ s with tod := some v }, .ok)
    | none => (s, .error .badArg)
  | _ => (s, .error .syntaxError)

/-- TIME_SET (R155). -/
def execTimeSet (l : LineId) (args : List Text) (s : State) : Host.Outcome State Fault Refusal :=
  .next (s.command l .timeSet args (timeSet args))

/-- The answer of TIME? (R156). -/
def State.timeText (s : State) : Text :=
  match s.tod with
  | some t => todText t
  | none => ascii "UNSET"

/-- TIME_QUERY (R156). -/
def execTimeQuery (l : LineId) (args : List Text) (s : State) : Host.Outcome State Fault Refusal :=
  .next (s.command l .timeQuery args (bareQuery args s.timeText))

/-- SYS_UPTIME (R156). -/
def execSysUptime (l : LineId) (args : List Text) (s : State) : Host.Outcome State Fault Refusal :=
  .next (s.command l .sysUptime args (bareQuery args (dec s.runSeconds)))

end Sys2Proof.Machine
end

