-- ==== Sys2Proof/Machine/Transfers.lean ====
section
/-! DEFINITION. Row transfers: frames, the engine at a boundary, the characters it takes, stalls, the end of a transfer,
and the ROWS commands (09_row_transfers.md, R207 to R209). -/

namespace Sys2Proof.Machine

/-! ### Frames (R207 to R209) -/

/-- A value as `n` bytes, most significant byte first (R207). -/
def bigEndian : Nat → Nat → List Byte
  | 0, _ => []
  | n + 1, v => bigEndian n (v / 256) ++ [BitVec.ofNat 8 v]

/-- The exclusive or of bytes (R207). -/
def xorBytes (bs : List Byte) : Byte := bs.foldl (· ^^^ ·) 0#8

/-- The envelope of a frame: STX, kind, length, content, check (R207). -/
def frame (kind : Byte) (content : List Byte) : Text :=
  let covered := kind :: bigEndian 2 content.length ++ content
  0x02#8 :: covered ++ [xorBytes covered]

/-- The sheet state codes (R208). -/
def SheetState.code : SheetState → Nat
  | .defined => 1
  | .filling => 2
  | .complete => 3
  | .retiring => 4

/-- The form's code (R208). -/
def RowForm.code : RowForm → Nat
  | .all => 0
  | .filled => 1

/-- The content of the header frame (R208). -/
def headerContent (sh : Sheet) (first count : Nat) (form : RowForm) : List Byte :=
  sh.name ++ List.replicate (12 - sh.name.length) 0x20#8 ++ bigEndian 2 sh.chart ++ bigEndian 2 sh.width ++
    bigEndian 2 sh.height ++ bigEndian 1 sh.lpm ++ bigEndian 1 sh.state.code ++ bigEndian 4 sh.seq ++
    bigEndian 2 sh.filledRows ++ bigEndian 2 first ++ bigEndian 2 count ++ bigEndian 1 form.code

/-- The quality byte of a span (R209). -/
def qualityByte : Option Span → Byte
  | some sp => BitVec.ofNat 8 sp.quality
  | none => 0xFF#8

/-- The source of a span: its channel, 0 for an EMPTY one (R209). -/
def sourceOf : Option Span → Nat
  | some sp => sp.chan.num
  | none => 0

/-- The two source bytes: two bits a span, span 0 in the most significant bits (R209). -/
def sourceBytes (spans : List (Option Span)) : List Byte :=
  bigEndian 2 (spans.foldl (fun acc sp => acc * 4 + sourceOf sp) 0)

/-- The content of the frame of row `n` (R209). -/
def State.rowContent (s : State) (sh : Sheet) (n : Nat) : List Byte :=
  bigEndian 2 n ++ bigEndian 4 (sh.row n).seq ++ (sh.row n).spans.map qualityByte ++
    sourceBytes (sh.row n).spans ++ s.rowBytes sh n

/-- The frame of row `n`, from a copy of the row as it stands (R190, R192). -/
def State.rowFrame (s : State) (sh : Sheet) (n : Nat) : Text := frame 0x52#8 (s.rowContent sh n)

/-! ### The engine (R185, R193 to R202) -/

/-- The remaining count r: the rows of the range not yet examined (R185). -/
def Transfer.remaining (t : Transfer) : Nat := t.first + t.count - t.next

/-- The terminators (R201, R202). -/
inductive Terminator where
  | ok | cancelled | stalled | interrupted
  deriving DecidableEq, Repr

/-- The text of a terminator with the remaining count `r` (R201). -/
def Terminator.text (r : Nat) : Terminator → Text
  | .ok => ascii "OK"
  | .cancelled => ascii "!CANCELLED " ++ dec r
  | .stalled => ascii "!STALLED " ++ dec r
  | .interrupted => ascii "!INTERRUPTED " ++ dec r

/-- XFER is raised for STALLED and INTERRUPTED (R202). -/
def Terminator.raisesXfer : Terminator → Bool
  | .ok => false
  | .cancelled => false
  | .stalled => true
  | .interrupted => true

/-- The terminator of a pending end. -/
def PendingEnd.terminator : PendingEnd → Terminator
  | .cancelled => .cancelled
  | .interrupted => .interrupted

/-- A terminator is decided: the engine is ENDING, the terminator is sent, and XFER is raised as it requires (R202). -/
def Line.decideEnd (t : Transfer) (e : Terminator) (x : Line) : Line :=
  let y : Line := { x with
    transfer := some { t with phase := .ending, pauseRequest := false, pendingEnd := none, endsOk := decide (e = .ok) }
    tx := x.tx.send (e.text t.remaining ++ crlf) }
  if e.raisesXfer then y.raise .xfer else y

/-- The next row of a FILLED read with a stored span, among `k` rows from `n` on (R191). -/
def nextFilled (sh : Sheet) : Nat → Nat → Option Nat
  | 0, _ => none
  | k + 1, n => if (sh.row n).spans.all Option.isNone then nextFilled sh k (n + 1) else some n

/-- The row whose frame is sent next, if the range holds one more (R190, R191). -/
def Transfer.nextRow (t : Transfer) (sh : Sheet) : Option Nat :=
  match t.form with
  | .all => if t.next < t.first + t.count then some t.next else none
  | .filled => nextFilled sh t.remaining t.next

/-- The engine examines the next row: its frame begins, or OK is decided at the end of the range (R190, R191, R196). -/
def State.examine (s : State) (l : LineId) (t : Transfer) : State :=
  match s.sheet t.entry with
  | none => s
  | some sh =>
    match t.nextRow sh with
    | some n =>
      s.updLine l fun x =>
        { x with
          transfer := some { t with next := n + 1, phase := .sending }
          tx := x.tx.send (s.rowFrame sh n) }
    | none => s.updLine l (Line.decideEnd { t with next := t.first + t.count } .ok)

/-- The engine at a boundary (R196). -/
def State.atBoundary (s : State) (l : LineId) (t : Transfer) : State :=
  match t.pendingEnd with
  | some e => s.updLine l (Line.decideEnd t e.terminator)
  | none =>
    if t.next = t.first + t.count then s.updLine l (Line.decideEnd t .ok)
    else if t.pauseRequest then
      s.updLine l fun x =>
        { x with transfer := some { t with phase := .paused, pauseRequest := false, single := 0 } }
    else s.examine l t

/-- FRAME_BOUNDARY (R196): the head or the row frame being sent has been sent. -/
def execFrameBoundary (l : LineId) (s : State) : Host.Outcome State Fault Refusal :=
  .next <| s.live fun s =>
    match (s.line l).transfer with
    | none => s
    | some t => if t.phase = .sending then (s.flushTx l).atBoundary l t else s

/-- STALL (R198): the single pause has reached 10 s or the cumulative pause 60 s. -/
def execStall (l : LineId) (s : State) : Host.Outcome State Fault Refusal :=
  .next <| s.live fun s =>
    match (s.line l).transfer with
    | none => s
    | some t =>
      if t.phase = .paused ∧ (Config.singlePauseLimit ≤ t.single ∨ Config.cumulativePauseLimit ≤ t.cumulative) then
        s.updLine l (Line.decideEnd t .stalled)
      else s

/-- The interpreter after a transfer: with OK it goes on, otherwise the rest of the command line is discarded (R163). -/
def Line.afterTransfer (ok : Bool) (x : Line) : Line :=
  match x.interp with
  | .held h => { x with transfer := none, interp := if ok then h.goOn else .ready }
  | _ => { x with transfer := none }

/-- TRANSFER_END (R193, R202): the last character of the terminator has been sent. -/
def execTransferEnd (l : LineId) (s : State) : Host.Outcome State Fault Refusal :=
  .next <| s.live fun s =>
    match (s.line l).transfer with
    | none => s
    | some t =>
      if t.phase = .ending then
        (((s.flushTx l).updLine l (Line.afterTransfer t.endsOk)).dropReader t.entry)
      else s

/-! ### Characters during a transfer (R195, R197, R199, R200) -/

/-- What the engine makes of one character: the state after it, and whether the character is passed on. -/
def State.engineTakes (s : State) (l : LineId) (t : Transfer) (b : Byte) : State × Bool :=
  let set := fun (t' : Transfer) => s.updLine l fun x => { x with transfer := some t' }
  if b = 0x0A#8 then (s, true)
  else
    match t.phase with
    | .sending =>
      match t.pendingEnd with
      | some _ => (s, !(b == 0x13#8 || b == 0x11#8 || b == 0x18#8))
      | none =>
        if b = 0x13#8 then (set { t with pauseRequest := true }, false)
        else if b = 0x11#8 then (set { t with pauseRequest := false }, false)
        else if b = 0x18#8 then (set { t with pendingEnd := some .cancelled }, false)
        else (set { t with pendingEnd := some .interrupted }, true)
    | .paused =>
      if b = 0x13#8 then (s, false)
      else if b = 0x11#8 then (s.examine l { t with phase := .sending }, false)
      else if b = 0x18#8 then (s.updLine l (Line.decideEnd t .cancelled), false)
      else (s.updLine l (Line.decideEnd t .interrupted), true)
    | .ending => (s, !(b == 0x13#8 || b == 0x11#8 || b == 0x18#8))

/-! ### ROWS commands -/

/-- The form argument (R186). -/
def rowForm? : Option Text → Option RowForm
  | none => some .all
  | some [] => some .all
  | some t => if t = ascii "ALL" then some .all else if t = ascii "FILLED" then some .filled else none

/-- The count argument of ROWS.READ for `rest` rows from first to the end of the sheet (R187). -/
def readCount? (t : Text) : Option (Nat → Nat) :=
  if t = ascii "MIN" then some fun _ => 0
  else if t = ascii "MAX" ∨ t = ascii "DEF" then some fun rest => rest
  else (number? t).map fun n => fun rest => min n rest

/-- The opening line of a read (R188). -/
def openingLine (name : Text) (first count : Nat) : Text :=
  ascii "=ROWS " ++ fields [name, dec first, dec count]

/-- The transfer that a read begins (R185). -/
def Transfer.fresh (entry : Nat) (name : Text) (form : RowForm) (first count : Nat) : Transfer :=
  { entry := entry, name := name, form := form, first := first, count := count, next := first, phase := .sending,
    pauseRequest := false, pendingEnd := none, single := 0, cumulative := 0, endsOk := false }

/-- A read begins: a reader, a transfer, and the head sent: the opening line, and the header frame behind it (R188). -/
def State.beginRead (s : State) (l : LineId) (i : Nat) (sh : Sheet) (form : RowForm) (first count : Nat) : State :=
  (s.addReader i).updLine l fun x =>
    { x with
      transfer := some (.fresh i sh.name form first count)
      tx := (x.tx.send (openingLine sh.name first count ++ crlf)).send
        (frame 0x48#8 (headerContent sh first count form)) }

/-- ROWS.READ sheet,first,count[,ALL|FILLED] (R186 to R188). -/
def rowsRead (l : LineId) (args : List Text) (s : State) : State × Answer :=
  match args with
  | nm :: fr :: ct :: opt =>
    if 1 < opt.length then (s, .error .syntaxError)
    else
      match sheetRef? nm, number? fr, readCount? ct, rowForm? opt[0]? with
      | some r, some first, some count, some form =>
        match s.resolve l r with
        | none => (s, .error .noSheet)
        | some i =>
          match s.sheet i with
          | none => (s, .error .noSheet)
          | some sh =>
            if sh.state = .retiring then (s, .error .retiring)
            else if sh.height ≤ first then (s, .error .rowRange)
            else (s.beginRead l i sh form first (count (sh.height - first)), .hold)
      | _, _, _, _ => (s, .error .badArg)
  | _ => (s, .error .syntaxError)

/-- ROWS_READ (R186). -/
def execRowsRead (l : LineId) (args : List Text) (s : State) : Host.Outcome State Fault Refusal :=
  .next (s.command l .rowsRead args (rowsRead l args))

/-- The ranges of consecutive rows whose sequence is greater than `seq`, the first row being `i` (R205). -/
def changedRanges (seq : Nat) : Nat → List RowEntry → List (Nat × Nat)
  | _, [] => []
  | i, r :: rest =>
    let later := changedRanges seq (i + 1) rest
    if seq < r.seq then
      match later with
      | (x, y) :: more => if x = i + 1 then (i, y) :: more else (i, i) :: (x, y) :: more
      | [] => [(i, i)]
    else later

/-- The answer of ROWS.SINCE? (R205, R212). -/
def Sheet.sinceText (sh : Sheet) (seq from_ : Nat) : Text :=
  let ranges := changedRanges seq from_ (sh.rows.drop from_)
  dec sh.seq ++ items ((ranges.take 16).map fun p => dec p.1 ++ ascii "-" ++ dec p.2) ++
    (if 16 < ranges.length then ascii ";MORE" else [])

/-- A row number that may be omitted or empty for 0 (R205). -/
def fromRow? : Option Text → Option Nat
  | none => some 0
  | some [] => some 0
  | some t => number? t

/-- ROWS.SINCE? sheet,seq[,from] (R205). -/
def rowsSince (l : LineId) (args : List Text) (s : State) : State × Answer :=
  match args with
  | nm :: sq :: opt =>
    if 1 < opt.length then (s, .error .syntaxError)
    else
      match sheetRef? nm, numberIn? 0 Config.maxCount32 sq, fromRow? opt[0]? with
      | some r, some seq, some from_ =>
        match s.resolve l r with
        | none => (s, .error .noSheet)
        | some i =>
          match s.sheet i with
          | none => (s, .error .noSheet)
          | some sh =>
            if sh.height ≤ from_ then (s, .error .rowRange) else (s, .values (sh.sinceText seq from_))
      | _, _, _ => (s, .error .badArg)
  | _ => (s, .error .syntaxError)

/-- ROWS_SINCE (R205). -/
def execRowsSince (l : LineId) (args : List Text) (s : State) : Host.Outcome State Fault Refusal :=
  .next (s.command l .rowsSince args (rowsSince l args))

/-- A span of ROWS.MAP?: quality, channel and pass, or "-" (R206, R211). -/
def spanText : Option Span → Text
  | some sp => dec sp.quality ++ ascii ":" ++ chanText sp.chan ++ ascii ":" ++ dec sp.pass
  | none => ascii "-"

/-- An item of ROWS.MAP? (R206, R212). -/
def Sheet.mapItem (sh : Sheet) (n : Nat) : Text :=
  fields ([dec n, dec (sh.row n).seq] ++ (sh.row n).spans.map spanText)

/-- ROWS.MAP? sheet,first,count (R206). -/
def rowsMap (l : LineId) (args : List Text) (s : State) : State × Answer :=
  match args with
  | [nm, fr, ct] =>
    match sheetRef? nm, number? fr, clamped? 0 16 16 ct with
    | some r, some first, some count =>
      match s.resolve l r with
      | none => (s, .error .noSheet)
      | some i =>
        match s.sheet i with
        | none => (s, .error .noSheet)
        | some sh =>
          if sh.height ≤ first then (s, .error .rowRange)
          else
            (s, .values (items ((List.range (min count (sh.height - first))).map fun k => sh.mapItem (first + k))))
    | _, _, _ => (s, .error .badArg)
  | _ => (s, .error .syntaxError)

/-- ROWS_MAP (R206). -/
def execRowsMap (l : LineId) (args : List Text) (s : State) : Host.Outcome State Fault Refusal :=
  .next (s.command l .rowsMap args (rowsMap l args))

end Sys2Proof.Machine
end

