-- ==== Sys2Proof/Machine/Lines.lean ====
section
/-! DEFINITION. Command lines: characters and the input buffer, breaks, taking command lines, sheet notices, and the
EVENT, LINE and SYS.ID? commands (08_command_lines.md). -/

namespace Sys2Proof.Machine

/-! ### Characters and the input buffer (R157 to R159) -/

/-- The characters of command text in the input buffer (R157). -/
def Line.buffered (x : Line) : Nat :=
  (x.complete.map fun c => c.chars.length).sum + x.receiving.chars.length

/-- A character reaches the input buffer (R157, R158). -/
def Line.bufferTakes (b : Byte) (x : Line) : Line :=
  if b = 0x0A#8 ∨ b = 0x11#8 ∨ b = 0x13#8 ∨ b = 0x18#8 then x
  else if b = 0x0D#8 then { x with complete := x.complete ++ [x.receiving], receiving := .empty }
  else if x.receiving.overrun then x
  else if Config.bufferSize ≤ x.buffered then
    ({ x with receiving := { x.receiving with overrun := true } }).raise .line
  else { x with receiving := { x.receiving with chars := x.receiving.chars ++ [b] } }

/-- A character received whole (R157, R159, R195). -/
def State.takeChar (s : State) (l : LineId) (b : Byte) (framingError : Bool) : State :=
  let s1 := if framingError then s.raise l .line else s
  match (s1.line l).transfer with
  | none => s1.updLine l (Line.bufferTakes b)
  | some t =>
    let r := s1.engineTakes l t b
    if r.2 then r.1.updLine l (Line.bufferTakes b) else r.1

/-- CHARACTER_RECEIVED (R157): nothing is received during a device reset or before the input is back at marking after a
break (R164, R182). -/
def execCharacterReceived (l : LineId) (byte : Byte) (framingError : Bool) (s : State) :
    Host.Outcome State Fault Refusal :=
  .next (if s.listening && !(s.line l).inBreak then s.takeChar l byte framingError else s)

/-! ### The filter and sheet notices (R172 to R176) -/

/-- Whether a chart identifier matches a filter (R172). -/
def Filter.matchesId (id : Nat) : Filter → Bool
  | .mask a b => (List.range 12).all fun k => b.testBit k || (id.testBit k == a.testBit k)
  | .pair a b => decide (id = a ∨ id = b)
  | .range a b => decide (a ≤ id ∧ id ≤ b)
  | .off => false

/-- A line takes an OPENED or DONE notice (R175). -/
def Line.takeNews (n : SheetNotice) (x : Line) : Line :=
  if x.filter.matchesId n.chart then
    if x.news.any fun e => e.name == n.name && e.kind == n.kind then x
    else
      ({ x with
        news := (if Config.newsSize ≤ x.news.length then x.news.drop 1 else x.news) ++ [n] }).raise .news
  else x

/-- A line takes a FREED notice (R176). -/
def Line.takeFreed (n : SheetNotice) (x : Line) : Line :=
  let y : Line := { x with news := x.news.filter fun e => !(e.name == n.name) }
  if x.filter.matchesId n.chart then y.raise .lost else y

/-- NEWS_NOTICE (R175): the oldest sheet notice in flight to the line is an OPENED or DONE notice, and is taken. -/
def execNewsNotice (l : LineId) (s : State) : Host.Outcome State Fault Refusal :=
  .next <| s.live fun s =>
    match (s.line l).notices with
    | [] => s
    | n :: rest =>
      if n.kind = .freed then s
      else s.updLine l fun x => ({ x with notices := rest }).takeNews n

/-- FREED_NOTICE (R176): the oldest sheet notice in flight to the line is a FREED notice, and is taken. -/
def execFreedNotice (l : LineId) (s : State) : Host.Outcome State Fault Refusal :=
  .next <| s.live fun s =>
    match (s.line l).notices with
    | [] => s
    | n :: rest =>
      if n.kind = .freed then s.updLine l fun x => ({ x with notices := rest }).takeFreed n
      else s

/-! ### Break and line reset (R164, R165) -/

/-- The line's own part of a line reset: steps 1 and 2, and the transfer's end without a terminator (R165, R203). -/
def Line.reset (x : Line) : Line :=
  { Line.initial with inBreak := x.inBreak, tx := x.tx.stop, notices := x.notices }

/-- Step 3 of a line reset: the sheet that the line read loses a reader; if that frees it, its FREED notice reaches the reset
line within the same event, behind the notices that were in flight to it, whose effects the reset has undone (R101, R165; log
entry 41). -/
def State.resetReader (s : State) (l : LineId) (i : Nat) : State :=
  match s.sheet i with
  | none => s
  | some sh =>
    if sh.state = .retiring ∧ sh.readers ≤ 1 then
      (s.dropReader i).updLine l fun x => ({ x with notices := [] }).takeFreed ⟨.freed, sh.name, sh.chart⟩
    else s.dropReader i

/-- A line reset (R165). -/
def State.lineReset (s : State) (l : LineId) : State :=
  let transfer := (s.line l).transfer
  let s1 := s.updLine l Line.reset
  let s2 := match transfer with
    | some t => s1.resetReader l t.entry
    | none => s1
  { s2 with
    writer := s2.writer.map fun w => if w.line = some l then { w with line := none } else w }

/-- BREAK (R164): one break causes one line reset; during a device reset it is lost. -/
def execBreakSeen (l : LineId) (s : State) : Host.Outcome State Fault Refusal :=
  .next (if s.listening && !(s.line l).inBreak then
    (s.lineReset l).updLine l fun x => { x with inBreak := true } else s)

/-- RETURN_TO_MARKING (R164). -/
def execReturnToMarking (l : LineId) (s : State) : Host.Outcome State Fault Refusal :=
  .next <| s.live fun s => s.updLine l fun x => { x with inBreak := false }

/-! ### Taking command lines (R158, R160, R161) -/

/-- A READY interpreter takes a command line: an overrun one is answered !TOO_LONG 1, one of nothing but spaces is not
answered, and any other is cut at ";" into its commands. -/
def State.takeLine (s : State) (l : LineId) (c : CmdLine) : State :=
  if c.overrun then s.sendText l (errorText .tooLong 1)
  else if c.chars.all isSpace then s
  else s.setInterp l (.executing { todo := cutAt 0x3B#8 c.chars, taken := 0 })

/-- COMMAND_LINE_TAKE (R161): a READY interpreter takes the oldest complete command line. -/
def execCommandLineTake (l : LineId) (s : State) : Host.Outcome State Fault Refusal :=
  .next <|
    if s.listening then
      match (s.line l).interp, (s.line l).complete with
      | .ready, c :: rest => (s.updLine l fun x => { x with complete := rest }).takeLine l c
      | _, _ => s
    else s

/-- The refusal of a command by its form or its keyword (R160). -/
def refuseText (p : Parsed) (s : State) : State × Answer :=
  match p with
  | .malformed => (s, .error .syntaxError)
  | _ => (s, .error .unknown)

/-- UNKNOWN_COMMAND (R160): the next command of the line, which has this text, is malformed or not in the summary. -/
def execUnknownCommand (l : LineId) (command : Text) (s : State) : Host.Outcome State Fault Refusal :=
  .next <|
    if s.listening ∧ (s.line l).nextCommand = some command then
      match parseCommand command with
      | .malformed => s.takeNext l (refuseText .malformed)
      | .unknown => s.takeNext l (refuseText .unknown)
      | .known _ _ => s
    else s

/-! ### EVENT commands (R168 to R171) -/

/-- EVENT_FLAGS (R168). -/
def execEventFlags (l : LineId) (args : List Text) (s : State) : Host.Outcome State Fault Refusal :=
  .next (s.command l .eventFlags args
    (bareQuery args (fields [flagsText (s.line l).flags, flagsText (s.line l).enables])))

/-- The flags that stay set after EVENT.TAKE?: those that are not enabled (R169). -/
def FlagSet.taken (fs en : FlagSet) : FlagSet := fs.putAll (fs.both en).members false

/-- EVENT.TAKE? (R169). -/
def eventTake (l : LineId) (args : List Text) (s : State) : State × Answer :=
  match args with
  | [] =>
    let x := s.line l
    (s.updLine l fun y => { y with flags := y.flags.taken y.enables }, .values (flagsText (x.flags.both x.enables)))
  | _ :: _ => (s, .error .syntaxError)

/-- EVENT_TAKE (R169). -/
def execEventTake (l : LineId) (args : List Text) (s : State) : Host.Outcome State Fault Refusal :=
  .next (s.command l .eventTake args (eventTake l args))

/-- A command whose argument names flags (R170, R171). -/
def flagCommand (l : LineId) (f : List Flag → Line → Line) (args : List Text) (s : State) : State × Answer :=
  match args with
  | [t] =>
    match flags? t with
    | some names => (s.updLine l (f names), .ok)
    | none => (s, .error .badArg)
  | _ => (s, .error .syntaxError)

/-- EVENT_CLEAR (R170). -/
def execEventClear (l : LineId) (args : List Text) (s : State) : Host.Outcome State Fault Refusal :=
  .next (s.command l .eventClear args
    (flagCommand l (fun names x => { x with flags := x.flags.putAll names false }) args))

/-- EVENT_SET (R170). -/
def execEventSet (l : LineId) (args : List Text) (s : State) : Host.Outcome State Fault Refusal :=
  .next (s.command l .eventSet args
    (flagCommand l (fun names x => { x with flags := x.flags.putAll names true }) args))

/-- EVENT_ENABLE (R171). -/
def execEventEnable (l : LineId) (args : List Text) (s : State) : Host.Outcome State Fault Refusal :=
  .next (s.command l .eventEnable args
    (flagCommand l (fun names x => { x with enables := x.enables.putAll names true }) args))

/-- EVENT_DISABLE (R171). -/
def execEventDisable (l : LineId) (args : List Text) (s : State) : Host.Outcome State Fault Refusal :=
  .next (s.command l .eventDisable args
    (flagCommand l (fun names x => { x with enables := x.enables.putAll names false }) args))

/-! ### LINE commands (R173, R177 to R179) -/

/-- The filter of a mode word with two values; RANGE exchanges them when the first is greater (R173). -/
def filterOf (mode : Text) (a b : Nat) : Option Filter :=
  if mode = ascii "MASK" then some (.mask a b)
  else if mode = ascii "PAIR" then some (.pair a b)
  else if mode = ascii "RANGE" then some (if a ≤ b then .range a b else .range b a)
  else none

/-- The mode words that take two values (R173). -/
def twoValueModes : List Text := [ascii "MASK", ascii "PAIR", ascii "RANGE"]

/-- LINE.FILTER mode[,a,b] (R173). -/
def lineFilter (l : LineId) (args : List Text) (s : State) : State × Answer :=
  let set := fun (f : Filter) => s.updLine l fun x => { x with filter := f }
  match args with
  | [mode] =>
    if mode = ascii "OFF" then (set .off, .ok)
    else if twoValueModes.contains mode then (s, .error .syntaxError)
    else (s, .error .badArg)
  | [mode, x, y] =>
    if mode = ascii "OFF" then (s, .error .syntaxError)
    else
      match numberIn? 0 4095 x, numberIn? 0 4095 y with
      | some a, some b =>
        match filterOf mode a b with
        | some f => (set f, .ok)
        | none => (s, .error .badArg)
      | _, _ => (s, .error .badArg)
  | _ => (s, .error .syntaxError)

/-- LINE_FILTER (R173). -/
def execLineFilter (l : LineId) (args : List Text) (s : State) : Host.Outcome State Fault Refusal :=
  .next (s.command l .lineFilter args (lineFilter l args))

/-- An item of LINE.NEWS? (R177, R212). -/
def newsItem (e : SheetNotice) : Text := fields [e.name, dec e.chart, noticeText e.kind]

/-- LINE.NEWS? (R177). -/
def lineNews (l : LineId) (args : List Text) (s : State) : State × Answer :=
  match args with
  | [] =>
    (s.updLine l fun x => { x with news := if x.autotake then [] else x.news },
      .values (items ((s.line l).news.map newsItem)))
  | _ :: _ => (s, .error .syntaxError)

/-- LINE_NEWS (R177). -/
def execLineNews (l : LineId) (args : List Text) (s : State) : Host.Outcome State Fault Refusal :=
  .next (s.command l .lineNews args (lineNews l args))

/-- LINE.NEWS.DROP n (R179). -/
def lineNewsDrop (l : LineId) (args : List Text) (s : State) : State × Answer :=
  match args with
  | [t] =>
    match clamped? 0 8 8 t with
    | some n => (s.updLine l fun x => { x with news := x.news.drop n }, .ok)
    | none => (s, .error .badArg)
  | _ => (s, .error .syntaxError)

/-- LINE_NEWS_DROP (R179). -/
def execLineNewsDrop (l : LineId) (args : List Text) (s : State) : Host.Outcome State Fault Refusal :=
  .next (s.command l .lineNewsDrop args (lineNewsDrop l args))

/-- LINE.AUTOTAKE ON|OFF (R178). -/
def lineAutotake (l : LineId) (args : List Text) (s : State) : State × Answer :=
  match args with
  | [t] =>
    match onOff? t with
    | some v => (s.updLine l fun x => { x with autotake := v }, .ok)
    | none => (s, .error .badArg)
  | _ => (s, .error .syntaxError)

/-- LINE_AUTOTAKE (R178). -/
def execLineAutotake (l : LineId) (args : List Text) (s : State) : Host.Outcome State Fault Refusal :=
  .next (s.command l .lineAutotake args (lineAutotake l args))

/-! ### SYS.ID? (R184) -/

/-- The answer of SYS.ID? (R184). -/
def identityText : Text := ascii "RENNMUR,SOLFIDRA,C410," ++ dec Config.firmwareLevel

/-- SYS_ID (R184). -/
def execSysId (l : LineId) (args : List Text) (s : State) : Host.Outcome State Fault Refusal :=
  .next (s.command l .sysId args (bareQuery args identityText))

end Sys2Proof.Machine
end

