-- ==== Sys2Proof/Machine/Power.lean ====
section
/-! DEFINITION. Power, device reset and SYS.RESET (R20, R61, R99, R100, R127, R147, R148, R181 to R183, R204). -/

namespace Sys2Proof.Machine

/-! ### Power (R147, R148, R181) -/

/-- What the schedule store holds once power is gone: an image whose write had not completed is invalid (R147). -/
def State.imageAfterPower (s : State) : StoreImage :=
  match s.writer with
  | none => s.image
  | some w =>
    match w.completed with
    | some true => .whole w.snapshot
    | some false => .damaged w.snapshot
    | none => .damaged w.snapshot

/-- The part without power: all working state is lost, and only the schedule store and the model's queue remain
(log entry 21). -/
def State.off (s : State) : State := { State.blank s.imageAfterPower s.pending with powered := false }

/-- POWER_REMOVED (R147). -/
def execPowerRemoved (s : State) : Host.Outcome State Fault Refusal :=
  .next <| s.live State.off

/-- Power-on with what the schedule store holds: every block at its power-on value, the table loaded from a valid image,
TIME raised on every line, and SCHED for an invalid one (R148, R181). -/
def State.powerUp (image : StoreImage) (queue : List Instr) : State :=
  if image.valid then
    ({ State.blank image queue with sched := image.entries.map SchedEntry.stored } : State).raiseAll .time
  else ((State.blank image queue).raiseAll .time).raiseAll .sched

/-- POWER_ON (R181): on a part that has power, power was removed in between (log entry 21). -/
def execPowerOn (s : State) : Host.Outcome State Fault Refusal :=
  .next (.powerUp (if s.powered then s.imageAfterPower else s.image) s.pending)

/-! ### The RESET input (R182) -/

/-- RESET_INPUT (R182): the input is asserted, and a device reset is due unless one is under way. -/
def execResetInput (s : State) : Host.Outcome State Fault Refusal :=
  .next <| s.live fun s => { s with resetInput := true, resetDue := s.resetDue || !s.inReset }

/-- RESET_INPUT_RELEASED (R182). -/
def execResetInputReleased (s : State) : Host.Outcome State Fault Refusal :=
  .next <| s.live fun s => { s with resetInput := false }

/-! ### Device reset (R100, R182) -/

/-- Step 1 of R182 on one line: the buffer and the command line in hand go, and so do the responses and the frames not
begun; of a transfer, the frame in progress and a terminator already decided are sent to their ends (R204; log entry 42 says
which item has begun). -/
def Line.resetInput (x : Line) : Line :=
  { x with
    complete := [], receiving := .empty, interp := .ready
    tx :=
      match x.transfer with
      | none => x.tx.dropUnbegun
      | some t => if t.phase = .ending then x.tx.keepLast else x.tx.dropUnbegun }

/-- The numbers of the OPEN receptions, in table order. -/
def State.openNumbers (s : State) : List Nat :=
  s.recs.filterMap fun e =>
    match e with
    | some r => if r.isOpen then some r.number else none
    | none => none

/-- Every unbind in flight is taken. -/
def State.drainAllUnbinds (s : State) : State :=
  s.unbinds.foldl (fun acc i => acc.unbindSheet i) { s with unbinds := [] }

/-- Every OPEN reception ends ABORTED and its sheet leaves FILLING (R127, R100). -/
def State.abortAll (s : State) : State :=
  (s.openNumbers.foldl (fun acc n => acc.abortWhole n) s).drainAllUnbinds

/-- Step 3 of R182 on one line: a transfer in flight ends with its RESET terminator, unless its terminator was decided
(R204). -/
def Line.resetTransfer (x : Line) : Line :=
  match x.transfer with
  | none => x
  | some t =>
    { x with
      transfer := none
      tx := if t.phase = .ending then x.tx else x.tx.send (ascii "!RESET " ++ dec t.remaining ++ crlf) }

/-- Every transfer in flight ends, and its sheet loses its reader (R100, R204). -/
def State.resetTransfer (s : State) (l : LineId) : State :=
  let s' := s.updLine l Line.resetTransfer
  match (s.line l).transfer with
  | none => s'
  | some t => s'.dropReader t.entry

/-- Step 4 of R182 on one line: the values of R182, with what the transmitter has left to send; the flags are clear
until the reset is complete (log entry 18). -/
def Line.resetValues (x : Line) : Line := { Line.initial with inBreak := x.inBreak, tx := x.tx }

/-- A channel at device reset: IDLE, at its defaults, the tune message being sent kept and the waiting one discarded,
and no message in flight (R19, R20; log entry 16). -/
def Channel.resetValues (c : Channel) : Channel :=
  { Channel.initial with tune := { sending := c.tune.sending, waiting := none } }

/-- The effects of a device reset, in the order of R100 and R182. The model's choices: the run setting is ON from the
beginning of the reset, so that an advance of the time of day within the reset makes its minute event (log entry 39), and
one reset meets every cause outstanding when it begins: a reset begun by the RESET input also takes the place of the one that
an outstanding SYS.RESET would cause, and none follows it (R183; log entry 43). -/
def State.deviceReset (s : State) : State :=
  let s1 := (s.mapLines Line.resetInput).abortAll
  let s2 : State := { s1 with pool := [], hand := none }
  let s3 := LineId.all.foldl State.resetTransfer s2
  let s4 := (s3.mapChans fun _ c => c.resetValues).mapLines Line.resetValues
  { s4 with
    clock := 0
    schedRun := true
    writer := s4.writer.map fun w => { w with line := none }
    resetDue := false
    sysReset := none
    inReset := true }

/-- DEVICE_RESET (R182, R183): begun by the RESET input, or once the OK of SYS.RESET has been sent. -/
def execDeviceReset (s : State) : Host.Outcome State Fault Refusal :=
  .next <| s.live fun s =>
    if s.inReset then s
    else if s.resetDue then s.deviceReset
    else
      match s.sysReset with
      | some l => (s.flushTx l).deviceReset
      | none => s

/-- The device reset completes: the flags are exactly RESET, and a write that completed within the reset is taken
(R182, R147). -/
def State.resetComplete (s : State) : State :=
  let s1 : State := { s.mapLines (fun x => { x with flags := .afterReset }) with inReset := false }
  match s1.writer with
  | some w =>
    match w.completed with
    | some agrees => s1.completeWrite w agrees
    | none => s1
  | none => s1

/-- RESET_COMPLETE (R182): a reset whose RESET input is held asserted does not end. -/
def execResetComplete (s : State) : Host.Outcome State Fault Refusal :=
  .next <| s.live fun s => if s.inReset ∧ s.resetInput = false then s.resetComplete else s

/-- SYS.RESET (R183): answered OK, and the reset is due once that is sent; one taken while another line's is outstanding
is not answered (log entry 20). -/
def sysReset (l : LineId) (args : List Text) (s : State) : State × Answer :=
  match args with
  | [] =>
    match s.sysReset with
    | none => ({ s with sysReset := some l }, .okHold)
    | some _ => (s, .hold)
  | _ :: _ => (s, .error .syntaxError)

/-- SYS_RESET (R183). -/
def execSysReset (l : LineId) (args : List Text) (s : State) : Host.Outcome State Fault Refusal :=
  .next (s.command l .sysReset args (sysReset l args))

end Sys2Proof.Machine
end

