-- ==== Sys2Proof/Machine/Dispatch.lean ====
section
/-! DEFINITION. The dispatch of commands: one arm for each row of spec/opcode_table.json, each a call of its meaning. -/

namespace Sys2Proof.Machine

def exec (i : Instr) (s : State) : Host.Outcome State Fault Refusal :=
  match i with
  | .powerOn => Sys2Proof.Machine.execPowerOn s
  | .resetInput => Sys2Proof.Machine.execResetInput s
  | .deviceReset => Sys2Proof.Machine.execDeviceReset s
  | .resetComplete => Sys2Proof.Machine.execResetComplete s
  | .sampleTick heard => Sys2Proof.Machine.execSampleTick heard s
  | .runDeadline ch => Sys2Proof.Machine.execRunDeadline ch s
  | .listenTimerExpiry ch => Sys2Proof.Machine.execListenTimerExpiry ch s
  | .stateNotice ch => Sys2Proof.Machine.execStateNotice ch s
  | .lockReport ch => Sys2Proof.Machine.execLockReport ch s
  | .lockedNotice ch => Sys2Proof.Machine.execLockedNotice ch s
  | .periodReport ch => Sys2Proof.Machine.execPeriodReport ch s
  | .firstRowAssignment ch => Sys2Proof.Machine.execFirstRowAssignment ch s
  | .endOrder ch => Sys2Proof.Machine.execEndOrder ch s
  | .endNotice ch => Sys2Proof.Machine.execEndNotice ch s
  | .durationExpiry reception => Sys2Proof.Machine.execDurationExpiry reception s
  | .tuneMessageSent ch => Sys2Proof.Machine.execTuneMessageSent ch s
  | .lineRecordOffer ch => Sys2Proof.Machine.execLineRecordOffer ch s
  | .assemblerTake => Sys2Proof.Machine.execAssemblerTake s
  | .mergeRequest => Sys2Proof.Machine.execMergeRequest s
  | .linesStoredNotice reception => Sys2Proof.Machine.execLinesStoredNotice reception s
  | .linesNotStoredNotice reception => Sys2Proof.Machine.execLinesNotStoredNotice reception s
  | .unbind entry => Sys2Proof.Machine.execUnbind entry s
  | .newsNotice l => Sys2Proof.Machine.execNewsNotice l s
  | .freedNotice l => Sys2Proof.Machine.execFreedNotice l s
  | .runSecond => Sys2Proof.Machine.execRunSecond s
  | .minuteEvent => Sys2Proof.Machine.execMinuteEvent s
  | .schedStoreComplete agrees => Sys2Proof.Machine.execSchedStoreComplete agrees s
  | .characterReceived l byte framingError => Sys2Proof.Machine.execCharacterReceived l byte framingError s
  | .breakSeen l => Sys2Proof.Machine.execBreakSeen l s
  | .commandLineTake l => Sys2Proof.Machine.execCommandLineTake l s
  | .unknownCommand l command => Sys2Proof.Machine.execUnknownCommand l command s
  | .frameBoundary l => Sys2Proof.Machine.execFrameBoundary l s
  | .stall l => Sys2Proof.Machine.execStall l s
  | .transferEnd l => Sys2Proof.Machine.execTransferEnd l s
  | .chanTones l args => Sys2Proof.Machine.execChanTones l args s
  | .chanSense l args => Sys2Proof.Machine.execChanSense l args s
  | .chanSquelch l args => Sys2Proof.Machine.execChanSquelch l args s
  | .chanLost l args => Sys2Proof.Machine.execChanLost l args s
  | .chanLock l args => Sys2Proof.Machine.execChanLock l args s
  | .chanState l args => Sys2Proof.Machine.execChanState l args s
  | .chanAbort l args => Sys2Proof.Machine.execChanAbort l args s
  | .sheetDefine l args => Sys2Proof.Machine.execSheetDefine l args s
  | .sheetDelete l args => Sys2Proof.Machine.execSheetDelete l args s
  | .sheetDeleteAll l args => Sys2Proof.Machine.execSheetDeleteAll l args s
  | .sheetKeep l args => Sys2Proof.Machine.execSheetKeep l args s
  | .sheetCatalog l args => Sys2Proof.Machine.execSheetCatalog l args s
  | .sheetInfo l args => Sys2Proof.Machine.execSheetInfo l args s
  | .sheetFree l args => Sys2Proof.Machine.execSheetFree l args s
  | .sheetSelect l args => Sys2Proof.Machine.execSheetSelect l args s
  | .sheetSelectQuery l args => Sys2Proof.Machine.execSheetSelectQuery l args s
  | .recvNow l args => Sys2Proof.Machine.execRecvNow l args s
  | .recvStop l args => Sys2Proof.Machine.execRecvStop l args s
  | .recvStatus l args => Sys2Proof.Machine.execRecvStatus l args s
  | .recvList l args => Sys2Proof.Machine.execRecvList l args s
  | .schedAdd l args => Sys2Proof.Machine.execSchedAdd l args s
  | .schedDel l args => Sys2Proof.Machine.execSchedDel l args s
  | .schedOn l args => Sys2Proof.Machine.execSchedOn l args s
  | .schedOff l args => Sys2Proof.Machine.execSchedOff l args s
  | .schedList l args => Sys2Proof.Machine.execSchedList l args s
  | .schedRun l args => Sys2Proof.Machine.execSchedRun l args s
  | .schedStore l args => Sys2Proof.Machine.execSchedStore l args s
  | .timeSet l args => Sys2Proof.Machine.execTimeSet l args s
  | .timeQuery l args => Sys2Proof.Machine.execTimeQuery l args s
  | .sysUptime l args => Sys2Proof.Machine.execSysUptime l args s
  | .eventFlags l args => Sys2Proof.Machine.execEventFlags l args s
  | .eventTake l args => Sys2Proof.Machine.execEventTake l args s
  | .eventClear l args => Sys2Proof.Machine.execEventClear l args s
  | .eventSet l args => Sys2Proof.Machine.execEventSet l args s
  | .eventEnable l args => Sys2Proof.Machine.execEventEnable l args s
  | .eventDisable l args => Sys2Proof.Machine.execEventDisable l args s
  | .lineFilter l args => Sys2Proof.Machine.execLineFilter l args s
  | .lineNews l args => Sys2Proof.Machine.execLineNews l args s
  | .lineNewsDrop l args => Sys2Proof.Machine.execLineNewsDrop l args s
  | .lineAutotake l args => Sys2Proof.Machine.execLineAutotake l args s
  | .sysId l args => Sys2Proof.Machine.execSysId l args s
  | .sysReset l args => Sys2Proof.Machine.execSysReset l args s
  | .rowsRead l args => Sys2Proof.Machine.execRowsRead l args s
  | .rowsSince l args => Sys2Proof.Machine.execRowsSince l args s
  | .rowsMap l args => Sys2Proof.Machine.execRowsMap l args s
  | .powerRemoved => Sys2Proof.Machine.execPowerRemoved s
  | .returnToMarking l => Sys2Proof.Machine.execReturnToMarking l s
  | .resetInputReleased => Sys2Proof.Machine.execResetInputReleased s

end Sys2Proof.Machine
end

