-- ==== Sys2Proof/Machine/Idle.lean ====
section
/-! DEFINITION. What passes when no command waits: one character time on every line (R162, R198; log entry 5). -/

namespace Sys2Proof.Machine

/-- The pauses of a transfer after one more character time while PAUSED; they stop at their limits, where the transfer
stalls (R185, R198). -/
def Transfer.characterTime (t : Transfer) : Transfer :=
  if t.phase = .paused then
    { t with
      single := min (t.single + 1) Config.singlePauseLimit
      cumulative := min (t.cumulative + 1) Config.cumulativePauseLimit }
  else t

/-- One character time on a line: the transmitter sends its next character, and the pauses of a PAUSED transfer grow. -/
def Line.characterTime (x : Line) : Line :=
  { x with tx := x.tx.charTime, transfer := x.transfer.map Transfer.characterTime }

/-- One character time on every line of a part with power. -/
def State.characterTime (s : State) : State := s.live fun s => s.mapLines Line.characterTime

end Sys2Proof.Machine
end

