-- ==== Sys2Proof/Safety.lean ====
section
/-! DEFINITION. The terms in which claims about the block are stated: what it is for a command to be taken, which
answers a text command gives, and the invariants the numbered rules lay on the state. A safe run of the block is one in
which every command completes and every invariant below holds before and after each step. -/

namespace Sys2Proof.Machine

/-! ### Runs -/

/-- A command completes in a state: its meaning answers a next state. -/
def Completes (c : Instr) (s : State) : Prop := ∃ t, exec c s = .next t

/-- The part has power and no device reset is under way: it takes line input and commands (R181, R182). -/
def State.awake (s : State) : Prop := s.powered = true ∧ s.inReset = false

/-- `P` is kept by every step, whatever the command in front. -/
def KeptByEveryStep (P : State → Prop) : Prop := ∀ s t : State, P s → step s = .next t → P t

/-! ### Text commands -/

/-- The interpreter of line `l` takes the command `k` with the arguments `args` next, `h` being the command line in its
hand: the part is awake, the interpreter EXECUTING, and the first command not yet taken is this one (R160, R161). -/
def State.takes (s : State) (l : LineId) (k : Keyword) (args : List Text) (h : InHand) : Prop :=
  s.awake ∧ (s.line l).interp = .executing h ∧ ∃ text, h.todo.head? = some text ∧ parseCommand text = .known k args

/-- The state in which a command is taken: behind another command of its command line, the response lines before it have
been sent (R161). -/
def State.ready (s : State) (l : LineId) (h : InHand) : State := if h.taken = 0 then s else s.flushTx l

/-- A clamped argument `t` stands for the value `v` (00_scope.md: MIN, MAX and DEF give the least value, the greatest and
the default; a number is clamped to the range). -/
def ClampsTo (lo hi dflt : Nat) (t : Text) (v : Nat) : Prop :=
  (t = ascii "MIN" ∧ v = lo) ∨ (t = ascii "MAX" ∧ v = hi) ∨ (t = ascii "DEF" ∧ v = dflt) ∨
    ∃ n, number? t = some n ∧ v = (if n < lo then lo else if hi < n then hi else n)

/-! ### What arguments read as (R79, R128 to R130, R149, R155, R170) -/

/-- A text is its parts joined by a separator that stands in none of them. -/
def Joined (sep : Byte) (parts : List Text) (t : Text) : Prop :=
  parts ≠ [] ∧ (∀ p ∈ parts, sep ∉ p) ∧ (parts.intersperse [sep]).flatten = t

/-- A clamped argument that takes its default when it is omitted or left empty stands for `v` (R128). -/
def OptClampsTo (lo hi dflt : Nat) (t : Option Text) (v : Nat) : Prop :=
  ((t = none ∨ t = some []) ∧ v = dflt) ∨ ∃ w, t = some w ∧ ClampsTo lo hi dflt w v

/-- A sheet name: one to twelve letters, digits, hyphens and underscores, and no word that stands for something else
(R79). -/
def NameWf (t : Text) : Prop :=
  1 ≤ t.length ∧ t.length ≤ 12 ∧
  (∀ b ∈ t, (0x41#8 ≤ b ∧ b ≤ 0x5A#8) ∨ (0x30#8 ≤ b ∧ b ≤ 0x39#8) ∨ b = 0x2D#8 ∨ b = 0x5F#8) ∧
  t ∉ [ascii "ALL", ascii "AUTO", ascii "MIN", ascii "MAX", ascii "DEF"]

/-- A frequency argument stands for `f` tenths of a kilohertz: a number of kilohertz with at most one decimal, from 2000.0 to
30000.0 (R129). -/
def FreqReads (t : Text) (f : Nat) : Prop :=
  (20000 ≤ f ∧ f ≤ 300000) ∧
  ((∃ n, number? t = some n ∧ f = n * 10) ∨
    ∃ whole digit n d, t = whole ++ 0x2E#8 :: digit ∧ digit.length = 1 ∧ number? whole = some n ∧ number? digit = some d ∧
      f = n * 10 + d)

/-- The channels argument stands for a list of distinct channels, in the order written (R129). -/
def ChansRead (t : Text) (chans : List Chan) : Prop :=
  chans.Nodup ∧ ∃ parts, Joined 0x2B#8 parts t ∧ parts.map number? = chans.map fun ch => some ch.num

/-- The frequencies argument stands for none, or for one frequency for each of `n` channels (R129). -/
def FreqsRead (n : Nat) (t : Option Text) (freqs : Option (List Nat)) : Prop :=
  ((t = none ∨ t = some []) ∧ freqs = none) ∨
  ∃ w parts fs, t = some w ∧ w ≠ [] ∧ Joined 0x2B#8 parts w ∧ freqs = some fs ∧ fs.length = n ∧ parts.length = n ∧
    ∀ p ∈ parts.zip fs, FreqReads p.1 p.2

/-- The drift argument stands for a drift mode: LEARN when it is omitted, empty, LEARN or DEF; MIN, MAX or a signed number
clamped to -300..+300 for a fixed drift (R130). -/
def DriftReads (t : Option Text) (d : Drift) : Prop :=
  ((t = none ∨ t = some [] ∨ t = some (ascii "LEARN") ∨ t = some (ascii "DEF")) ∧ d = .learn) ∨
  (t = some (ascii "MIN") ∧ d = .fixed (-300)) ∨ (t = some (ascii "MAX") ∧ d = .fixed 300) ∨
  ∃ w n, t = some w ∧ signedNumber? w = some n ∧ d = .fixed (if n < -300 then -300 else if 300 < n then 300 else n)

/-- The arguments of a start stand for what it carries (R128 to R130). -/
def StartReads (args : List Text) (sp : StartSpec) : Prop :=
  ∃ channels chart name width lpm height opt, args = channels :: chart :: name :: width :: lpm :: height :: opt ∧
    ChansRead channels sp.chans ∧ (number? chart = some sp.chart ∧ sp.chart ≤ 4095) ∧ (name = sp.name ∧ NameWf name) ∧
    (number? width = some sp.width ∧ (sp.width = 1024 ∨ sp.width = 1536 ∨ sp.width = 2048)) ∧
    (number? lpm = some sp.lpm ∧ (sp.lpm = 60 ∨ sp.lpm = 90 ∨ sp.lpm = 120 ∨ sp.lpm = 180)) ∧
    ClampsTo 32 2048 1280 height sp.height ∧ FreqsRead sp.chans.length opt[0]? sp.freqs ∧ DriftReads opt[1]? sp.drift ∧
    OptClampsTo 0 15 4 opt[2]? sp.margin ∧ OptClampsTo 0 63 12 opt[3]? sp.qmin ∧
    OptClampsTo 1 60 10 opt[4]? sp.listen ∧ OptClampsTo 0 24 6 opt[5]? sp.window

/-- A part of a time: one or two digits with a value up to a limit (R149, R155). -/
def TimePartReads (hi : Nat) (t : Text) (v : Nat) : Prop := t.length ≤ 2 ∧ number? t = some v ∧ v ≤ hi

/-- The arguments of SCHED.ADD on line `l` stand for the entry it makes (R138, R149). -/
def EntryReads (l : LineId) (args : List Text) (e : SchedEntry) : Prop :=
  ∃ id hour minute dur rep rest hh mm, args = id :: (hour ++ 0x3A#8 :: minute) :: dur :: rep :: rest ∧
    (number? id = some e.id ∧ 1 ≤ e.id ∧ e.id ≤ 99) ∧ TimePartReads 23 hour hh ∧ TimePartReads 59 minute mm ∧
    e.start = hh * 60 + mm ∧ ClampsTo 1 180 30 dur e.duration ∧
    ((rep = ascii "DAILY" ∧ e.rep = .daily) ∨ (rep = ascii "ONCE" ∧ e.rep = .once)) ∧ StartReads rest e.spec ∧
    e.enabled = true ∧ e.line = l ∧ e.outcome = none

/-- A flag argument stands for a list of flags: ALL for all nine, or their names joined by "+" (R168, R170). -/
def FlagsRead (t : Text) (names : List Flag) : Prop :=
  let word : Flag → Text
    | .news => ascii "NEWS"
    | .lost => ascii "LOST"
    | .full => ascii "FULL"
    | .rfail => ascii "RFAIL"
    | .xfer => ascii "XFER"
    | .line => ascii "LINE"
    | .time => ascii "TIME"
    | .sched => ascii "SCHED"
    | .reset => ascii "RESET"
  (t = ascii "ALL" ∧ names = [.news, .lost, .full, .rfail, .xfer, .line, .time, .sched, .reset]) ∨
  (names ≠ [] ∧ ((names.map word).intersperse (ascii "+")).flatten = t)

/-! ### What answers are written in (R211, R212) -/

/-- The words and forms of text answers: fields joined by commas, lists joined by "+" and "-" for an empty one, "-" for what is
absent, two digits in each part of a minute of the day, one decimal in a frequency, a sign before a value that is not 0, and
the words of states, origins and causes. -/
def AnswerForms : Prop :=
  (∀ ts, fields ts = (ts.intersperse (ascii ",")).flatten) ∧
  (∀ ts, plusList ts = if ts = [] then ascii "-" else (ts.intersperse (ascii "+")).flatten) ∧
  (∀ (α : Type) (f : α → Text) (x : α), orDash f none = ascii "-" ∧ orDash f (some x) = f x) ∧
  (∀ m, m < 1440 → minuteText m = [BitVec.ofNat 8 (48 + m / 60 / 10), BitVec.ofNat 8 (48 + m / 60 % 10), 0x3A#8,
    BitVec.ofNat 8 (48 + m % 60 / 10), BitVec.ofNat 8 (48 + m % 60 % 10)]) ∧
  (∀ f, freqText f = dec (f / 10) ++ [0x2E#8, BitVec.ofNat 8 (48 + f % 10)]) ∧
  (∀ n : Nat, signed 0 = ascii "0" ∧ (0 < n → signed n = ascii "+" ++ dec n ∧ signed (-n) = ascii "-" ++ dec n)) ∧
  (driftText .learn = ascii "LEARN" ∧ ∀ d, driftText (.fixed d) = signed d) ∧
  (lineText .a = ascii "A" ∧ lineText .b = ascii "B" ∧ lineText .c = ascii "C") ∧
  (mirrorText .listening = ascii "LISTENING" ∧ mirrorText .phasing = ascii "PHASING" ∧ mirrorText .locked = ascii "LOCKED" ∧
    mirrorText .imaging = ascii "IMAGING" ∧ mirrorText .ended = ascii "ENDED") ∧
  (causeText .closed = ascii "CLOSED" ∧ causeText .silent = ascii "SILENT" ∧ causeText .faded = ascii "FADED" ∧
    causeText .full = ascii "FULL" ∧ causeText .expired = ascii "EXPIRED" ∧ causeText .aborted = ascii "ABORTED") ∧
  (sheetStateText .defined = ascii "DEFINED" ∧ sheetStateText .filling = ascii "FILLING" ∧
    sheetStateText .complete = ascii "COMPLETE" ∧ sheetStateText .retiring = ascii "RETIRING") ∧
  (sheetOriginText .defined = ascii "DEFINED" ∧ sheetOriginText .received = ascii "RECEIVED") ∧
  (originText (.manual .a) = ascii "MANUAL:A" ∧ originText (.manual .b) = ascii "MANUAL:B" ∧
    originText (.manual .c) = ascii "MANUAL:C" ∧ ∀ id, originText (.sched id) = ascii "SCHED:" ++ dec id) ∧
  (timingText .untimed = ascii "UNTIMED" ∧ (∀ d p r, timingText (.locked d p r) = ascii "LOCKED") ∧
    ∀ d p r o, timingText (.anchored d p r o) = ascii "ANCHORED")

/-! ### What a member hears -/

/-- A run of `n` white samples heard from sample index `e` on. -/
def hearWhite (d : Detector) (e : Nat) : Nat → Detector
  | 0 => d
  | n + 1 => (hearWhite d e n).hear (e + n) .white 0

/-! ### Invariants of the channels (R2, R3, R9, R10, R13 to R15, R17, R19, R21, R22) -/

/-- The settings lie in their ranges, the white tone 200 Hz or more above the black (R2, R21, R22). -/
def ChanConfig.wf (c : ChanConfig) : Prop :=
  300 ≤ c.black ∧ c.white ≤ 3400 ∧ c.black + 200 ≤ c.white ∧ c.squelch ≤ 32767 ∧ (1 ≤ c.lost ∧ c.lost ≤ 255) ∧
    (4 ≤ c.lock ∧ c.lock ≤ 16)

/-- What a member holds fits its state: a run of 1 to K - 1 markers exactly while collecting, a lost-line count short of
the limit, a listen timer that runs in LISTENING and PHASING (collecting) and not in IMAGING, and a current row inside
the sheet. -/
def Membership.wf (cfg : ChanConfig) (m : Membership) : Prop :=
  (match m.phase with
    | .collecting => m.run ≠ [] ∧ m.run.length < cfg.lock
    | _ => m.run = []) ∧
  m.lost < cfg.lost ∧
  (match m.phase with
    | .listening => m.listen.isSome
    | .collecting => m.listen.isSome
    | .locked => True
    | .imaging => m.listen = none ∧ m.row < m.height)

/-- A channel: its settings, its membership, and a tune output that holds a waiting message only behind one being
sent (R19). -/
def Channel.wf (c : Channel) : Prop :=
  c.cfg.wf ∧ (∀ m, c.member = some m → m.wf c.cfg) ∧ (c.tune.waiting.isSome → c.tune.sending.isSome)

def State.channelsWf (s : State) : Prop := ∀ ch, (s.chan ch).wf

/-! ### Invariants of the sheet store (R69, R70, R81, R83, R85) -/

/-- A sheet's own fields agree with each other: one row entry per row, one band place per 32 rows, a filled-row count
that counts, sequences that do not pass the sheet's, FILLING exactly with writers, RETIRING only with readers, COMPLETE
only with a filled row and a completed-at, and a band for every row with a stored span (R65). -/
def Sheet.wf (sh : Sheet) : Prop :=
  sh.rows.length = sh.height ∧ sh.bandMap.length = bandPlaces sh.height ∧
  sh.filledRows = sh.rows.countP (fun r => r.spans.any Option.isSome) ∧
  sh.seq ≤ Config.maxCount32 ∧ (∀ r ∈ sh.rows, r.seq ≤ sh.seq) ∧
  (sh.state = .filling ↔ 0 < sh.writers) ∧ (sh.state = .retiring → 0 < sh.readers) ∧
  (sh.state = .complete → 0 < sh.filledRows ∧ sh.completedAt.isSome) ∧
  ∀ r ∈ sh.rows.zipIdx, r.1.spans.any Option.isSome = true → (sh.bandOf r.2).isSome

/-- Every sheet's fields agree, and no two sheets of the directory have the same name (R79). -/
def State.sheetsWf (s : State) : Prop :=
  (∀ i sh, s.sheet i = some sh → sh.wf) ∧
  ∀ i j sh sh', s.sheet i = some sh → s.sheet j = some sh' → sh.name = sh'.name → i = j

/-- Between two states a sheet keeps what it stores (R68 to R70, R77): no stored span becomes EMPTY and no stored quality
decreases, the change sequence does not decrease if it was a 32-bit count, the filled-row count does not fall, and the name,
chart id, width, line rate and height stay. -/
def Sheet.keeps (sh new : Sheet) : Prop :=
  (∀ (n k : Nat) (sp : Span), (sh.row n).spans[k]? = some (some sp) →
    ∃ sp' : Span, (new.row n).spans[k]? = some (some sp') ∧ sp.quality ≤ sp'.quality) ∧
  (sh.seq ≤ Config.maxCount32 → sh.seq ≤ new.seq) ∧ sh.filledRows ≤ new.filledRows ∧
  new.name = sh.name ∧ new.chart = sh.chart ∧ new.width = sh.width ∧ new.lpm = sh.lpm ∧ new.height = sh.height

/-- Within a step from `s` to `t` a sheet was freed: its FREED notice has been sent to every line (R84). -/
def State.sentFreed (s t : State) (sh : Sheet) : Prop :=
  ∀ l, ⟨.freed, sh.name, sh.chart⟩ ∈ (t.line l).notices.drop (s.line l).notices.length

/-- The bands allocated to the sheets of the directory. -/
def State.heldBands (s : State) : List Nat := (s.dir.filterMap id).flatMap Sheet.bands

/-- Every band 0 to 511 is either in the free set or allocated to exactly one place of one sheet's band map, and the free
set is held in rising order (R85). -/
def State.bandsWf (s : State) : Prop :=
  (s.freeBands ++ s.heldBands).Perm (List.range Config.bandCount) ∧ s.freeBands.Pairwise (· < ·) ∧
  ∀ i sh, s.sheet i = some sh → sh.bandMap.length = bandPlaces sh.height

/-- The lines whose transfer in flight reads the sheet of an entry. -/
def State.readingLines (s : State) (i : Nat) : List LineId :=
  LineId.all.filter fun l => match (s.line l).transfer with
    | some t => t.entry == i
    | none => false

/-- An interpreter is HELD. -/
def Interp.isHeld : Interp → Prop
  | .held _ => True
  | _ => False

/-- A sheet's readers count is the number of lines whose transfer in flight reads it (R81); and an interpreter is HELD
while its line has a transfer in flight or a schedule store write (R163), never for both. -/
def State.readersWf (s : State) : Prop :=
  (∀ i, (s.readingLines i).length = ((s.sheet i).map Sheet.readers).getD 0) ∧
  (∀ l, (s.line l).transfer.isSome → (s.line l).interp.isHeld) ∧
  (∀ l w, s.writer = some w → w.line = some l → (s.line l).interp.isHeld ∧ (s.line l).transfer = none)

/-! ### Invariants of the pool and the tables (R57, R78, R110, R112, R138, R139) -/

/-- The pool holds at most 32 records, the directory 24 entries, the reception table 8 records. -/
def State.tablesWf (s : State) : Prop :=
  s.pool.length ≤ Config.poolSize ∧ s.dir.length = Config.directorySize ∧ s.recs.length = Config.receptionTableSize

/-- The numbers of the records in the reception table are 0 to 255 and distinct (R112). -/
def State.numbersWf (s : State) : Prop :=
  s.recs.length = Config.receptionTableSize ∧ s.lastNumber ≤ 255 ∧
  (s.recs.filterMap id).Pairwise (fun r q => r.number ≠ q.number) ∧ ∀ r ∈ s.recs.filterMap id, r.number ≤ 255

/-- The OPEN records of which a channel is an active member. -/
def State.openRecordsOf (s : State) (ch : Chan) : List Reception :=
  (s.recs.filterMap id).filter fun r => r.isOpen && r.activeChans.contains ch

/-- Memberships agree with the reception table (R3, R110, R113): a record has one member entry for each of its channels;
every OPEN record has an active member; a channel that is a member is the active member of exactly one OPEN record, the one
its membership names, and has no end notice in flight; an IDLE channel is an active member of none, or of the one that its
one end notice in flight names. -/
def State.membersWf (s : State) : Prop :=
  (∀ r ∈ s.recs.filterMap id, (r.members.map Member.chan).Nodup ∧ (r.isOpen = true → r.activeChans ≠ [])) ∧
  ∀ ch, match (s.chan ch).member with
    | some m => (s.openRecordsOf ch).map Reception.number = [m.reception] ∧ (s.chan ch).endNotices = []
    | none => (s.openRecordsOf ch).map Reception.number = (s.chan ch).endNotices.map EndNotice.reception ∧
        (s.chan ch).endNotices.length ≤ 1

/-- A member entry of an OPEN reception once the reception has ended ABORTED within one event (R95, R120, R127): an active
member of which the channel is still a member ends ABORTED, and one whose channel's end notice is in flight with the cause of
that notice; the first row stays only where the channel had entered IMAGING. -/
def State.abortedMember (s : State) (y : Member) : Member :=
  let ended (cause : EndCause) (imaged : Bool) : Member :=
    { y with cause := some cause, mirror := .ended, mark := none, firstRow := if imaged then y.firstRow else none }
  match y.cause, (s.chan y.chan).member, (s.chan y.chan).endNotices with
  | some _, _, _ => y
  | none, some m, _ => ended .aborted (decide (m.phase = .imaging))
  | none, none, n :: _ => ended n.cause n.imaged
  | none, none, [] => y

/-- The OPEN records bound to a directory entry, and the unbinds in flight that name it, by number. -/
def State.writersOf (s : State) (i : Nat) : Nat :=
  (s.recs.filterMap id).countP (fun r => r.isOpen && r.binding == some i) + s.unbinds.count i

/-- A sheet's writers count is the number of OPEN receptions bound to it, together with those that have ended and whose
unbind the store has not yet taken (R81, R92); and every OPEN record has its binding (R62). -/
def State.writersWf (s : State) : Prop :=
  (∀ i, s.writersOf i = ((s.sheet i).map Sheet.writers).getD 0) ∧
  ∀ r ∈ s.recs.filterMap id, r.isOpen = true → r.binding.isSome

/-- Two entries occupy a minute of the day in common and share a channel (R139). -/
def SchedEntry.collides (x y : SchedEntry) : Prop :=
  (∃ m, m < 1440 ∧ x.occupies m = true ∧ y.occupies m = true) ∧ ∃ ch, ch ∈ x.spec.chans ∧ ch ∈ y.spec.chans

/-- A schedule table: at most 32 entries, every field of each in its range, ordered by start minute and then by id, the ids
distinct, and no two enabled entries overlapping in time while sharing a channel (R138, R139). -/
def SchedTableWf (table : List SchedEntry) : Prop :=
  table.length ≤ Config.scheduleSize ∧
  (∀ e ∈ table, e.wellFormed = true) ∧
  table.Pairwise (fun x y => x.start < y.start ∨ x.start = y.start ∧ x.id < y.id) ∧
  table.Pairwise (fun x y => x.id ≠ y.id) ∧
  table.Pairwise (fun x y => x.enabled = true → y.enabled = true → ¬x.collides y)

/-- The table, a valid image of the schedule store and the snapshot being written are schedule tables (R138, R139, R148). -/
def State.schedulesWf (s : State) : Prop :=
  SchedTableWf s.sched ∧ (s.image.valid = true → SchedTableWf s.image.entries) ∧
  ∀ w, s.writer = some w → SchedTableWf w.snapshot

/-- The time of day, once set, is a time (R134). -/
def State.timeWf (s : State) : Prop := ∀ t, s.tod = some t → t.hh < 24 ∧ t.mm < 60 ∧ t.ss < 60

/-! ### Invariants of the command lines (R157, R172, R174) -/

/-- A filter's values are 12-bit, and a RANGE filter holds a ≤ b (R172). -/
def Filter.wf : Filter → Prop
  | .mask a b => a ≤ 4095 ∧ b ≤ 4095
  | .pair a b => a ≤ 4095 ∧ b ≤ 4095
  | .range a b => a ≤ b ∧ b ≤ 4095
  | .off => True

/-- A line: at most 256 characters buffered, a news list of at most 8 OPENED and DONE entries with no two of one sheet and
kind, and a filter in its ranges. -/
def Line.wf (x : Line) : Prop :=
  x.buffered ≤ Config.bufferSize ∧ x.news.length ≤ Config.newsSize ∧ (∀ n ∈ x.news, n.kind ≠ .freed) ∧
  x.news.Pairwise (fun m n => ¬(m.name = n.name ∧ m.kind = n.kind)) ∧ x.filter.wf

def State.linesWf (s : State) : Prop := ∀ l, (s.line l).wf

end Sys2Proof.Machine
end

