-- ==== Sys2Proof/Certificates/Slice0/Obligations.lean ====
section
/-! DEFINITION. The statements about the C410 block that the provers are asked to prove, grouped as the spec groups the
part. A statement says what a command leaves unchanged by giving its next state as an update of the state before, or by
`t = { s with … }`, which names every field that may differ. -/

open Sys2Proof Sys2Proof.Machine

/-! ### The block and its queue -/

/-- A step takes the command at the front of the queue and is its meaning on the state with the rest of the queue. The
queue is the model's own (log entries 2 and 32). -/
def Obligations.StepRunsFrontCommand : Prop :=
  ∀ (c : Instr) (rest : List Instr) (s : State), s.pending = c :: rest → step s = exec c { s with pending := rest }

/-- On an empty queue one character time of the lines passes: each line with something to send sends one character and
loses none, the first of the item being sent, or of the next one when that is finished; the pauses of a PAUSED transfer
grow by one character time up to their limits, and nothing else changes. The model's choice (log entries 5 and 7), from
R162 and R198. -/
def Obligations.EmptyQueuePassesCharacterTime : Prop :=
  ∀ s : State, s.pending = [] → ∃ t, step s = .next t ∧ t = { s with lines := t.lines } ∧ (s.powered = false → t = s) ∧
    ∀ l, t.line l = { s.line l with tx := (t.line l).tx, transfer := (t.line l).transfer } ∧
      (t.line l).tx.wire ++ (t.line l).tx.now ++ (t.line l).tx.waiting.flatten =
        (s.line l).tx.wire ++ (s.line l).tx.now ++ (s.line l).tx.waiting.flatten ∧
      (s.powered = true →
        (∀ b rest, (s.line l).tx.now = b :: rest → (t.line l).tx.wire = (s.line l).tx.wire ++ [b]) ∧
        (∀ b rest more, (s.line l).tx.now = [] → (s.line l).tx.waiting = (b :: rest) :: more →
          (t.line l).tx = ⟨rest, more, (s.line l).tx.wire ++ [b]⟩) ∧
        (t.line l).transfer = (s.line l).transfer.map fun x =>
          if x.phase = .paused then
            { x with
              single := if x.single < 115200 then x.single + 1 else 115200
              cumulative := if x.cumulative < 691200 then x.cumulative + 1 else 691200 }
          else x)

/-- Every command completes in every state, and no command's meaning touches the queue. The model's reading: no row of the
table stops the part (log entry 33), an event whose condition does not hold leaves the state as it is (log entry 1), and the
queue is the model's own (log entry 32). -/
def Obligations.EveryCommandCompletes : Prop :=
  ∀ (c : Instr) (s : State), ∃ t, exec c s = .next t ∧ t.pending = s.pending

/-! ### Power and resets -/

/-- The values of the state right after reset: the sample clock 0, every channel IDLE with its default settings and an
idle tune output, the pool empty and the assembler waiting, every directory entry FREE and every band in the free set, the
pointer clear, every reception record FREE with 255 as the last issued number, the time of day UNSET, run seconds 0, the
schedule running and its store's writer IDLE, and every line READY with flags {TIME}, no enable, filter MASK 0,4095, an
empty news list, auto-take ON, selection AUTO and no transfer. That the schedule store holds a valid image of an empty
table is R145's part as it leaves manufacture; that this is the state the model starts in is its choice (log entry 21). -/
def Obligations.ResetStateValues : Prop :=
  State.reset.powered = true ∧ State.reset.inReset = false ∧ State.reset.clock = 0 ∧
  (∀ ch, (State.reset.chan ch).cfg = ⟨1500, 2300, .norm, 800, 40, 8⟩ ∧ (State.reset.chan ch).member = none ∧
    (State.reset.chan ch).tune = ⟨none, none⟩) ∧
  State.reset.pool = [] ∧ State.reset.hand = none ∧
  State.reset.dir.length = 24 ∧ (∀ i, State.reset.sheet i = none) ∧ State.reset.latest = none ∧
  State.reset.freeBands.length = 512 ∧ (∀ b, b ∈ State.reset.freeBands ↔ b < 512) ∧
  State.reset.recs.length = 8 ∧ (∀ k, State.reset.reception k = none) ∧ State.reset.lastNumber = 255 ∧
  State.reset.tod = none ∧ State.reset.runSeconds = 0 ∧ State.reset.sched = [] ∧ State.reset.schedRun = true ∧
  State.reset.image.entries = [] ∧ State.reset.image.valid = true ∧ State.reset.writer = none ∧
  ∀ l, (State.reset.line l).flags.members = [.time] ∧ (State.reset.line l).enables.members = [] ∧
    (State.reset.line l).attention = false ∧ (State.reset.line l).interp = .ready ∧ (State.reset.line l).buffered = 0 ∧
    (State.reset.line l).complete = [] ∧ (State.reset.line l).filter = .mask 0 4095 ∧ (State.reset.line l).news = [] ∧
    (State.reset.line l).autotake = true ∧ (State.reset.line l).selection = .auto ∧ (State.reset.line l).transfer = none

/-- POWER_ON of a part without power: every block takes its power-on value, the schedule table is loaded from a valid image
with every last outcome absent and is empty for an invalid one, and every line carries TIME, with SCHED beside it when the
image is invalid. POWER_REMOVED leaves the image and nothing else of the part: with a write in flight the image is the
snapshot with its check value if the write had completed with an agreeing read-back, and invalid otherwise. RESET_INPUT and
RESET_INPUT_RELEASED assert and release the input; an assertion makes a device reset due unless one is under way. That the
RESET input stands released after POWER_ON and that no other state outlives the power (log entry 21), when a reset falls due
(log entry 19), and what check value an image has (log entry 22) are the model's. -/
def Obligations.PowerAndResetInput : Prop :=
  (∀ s : State, s.powered = false →
    exec .powerOn s = .next { State.reset with
      image := s.image, pending := s.pending
      sched := if s.image.valid = true then s.image.entries.map fun e => { e with outcome := none } else []
      lines :=
        let x : Line := { State.reset.line .a with
          flags := { FlagSet.empty with time := true, sched := !s.image.valid } }
        ⟨x, x, x⟩ }) ∧
  (∀ s : State, s.powered = true → ∃ t, exec .powerRemoved s = .next t ∧ t.powered = false ∧ t.pending = s.pending ∧
    (s.writer = none → t.image = s.image) ∧
    ∀ w, s.writer = some w →
      (w.completed = some true → t.image.entries = w.snapshot ∧ t.image.check = Config.imageCheck w.snapshot) ∧
      (w.completed ≠ some true → t.image.valid = false)) ∧
  (∀ s : State, s.powered = true →
    exec .resetInput s = .next { s with resetInput := true, resetDue := s.resetDue || !s.inReset } ∧
    exec .resetInputReleased s = .next { s with resetInput := false })

/-- DEVICE_RESET: in a state in which receptions, memberships, sheets and transfers agree, every OPEN reception ends with
its members ABORTED, every channel is IDLE at its defaults with no message in flight, keeping the tune message being sent,
the pool and the assembler's hand are emptied, and every transfer ends. A FILLING sheet becomes COMPLETE with a filled row
and DEFINED or gone without one, a RETIRING one is gone, every other is kept; none has a reader or a writer. Every line takes
its reset values; its transmitter keeps the item that has begun, and behind it, of a transfer, the terminator decided or
!RESET with the remaining count. The schedule, the clocks, the last issued number, the schedule store and the rows and bands
of every sheet that is kept stand as they were. The model's choices: the ends and the unbinds fall within the reset (log
entry 15), messages in flight are gone (16), the flags are clear until the reset completes (18), a break under way goes on
(36), the run setting is ON from the beginning of the reset (39), which item has begun (42), and a SYS.RESET outstanding when
the RESET input's reset begins is met by that reset (43). -/
def Obligations.DeviceResetEffects : Prop :=
  ∀ s : State, s.powered = true → s.inReset = false → (s.resetDue = true ∨ s.sysReset.isSome) →
    s.tablesWf → s.sheetsWf → s.bandsWf → s.readersWf → s.numbersWf → s.membersWf → s.writersWf →
    ∃ t, exec .deviceReset s = .next t ∧
      t = { s with
        inReset := true, resetDue := false, sysReset := none, clock := 0, schedRun := true, pool := [], hand := none,
        unbinds := [], writer := s.writer.map fun w => { w with line := none },
        chans := t.chans, dir := t.dir, freeBands := t.freeBands, mem := t.mem, latest := t.latest, recs := t.recs,
        lines := t.lines } ∧
      (∀ ch, t.chan ch = { Channel.initial with tune := ⟨(s.chan ch).tune.sending, none⟩ }) ∧
      (∀ l, t.line l = { Line.initial with inBreak := (s.line l).inBreak, tx := (t.line l).tx } ∧
        ((s.resetDue = true ∨ s.sysReset ≠ some l) →
          let x := (s.line l).tx
          let all := if x.now = [] then x.waiting else x.now :: x.waiting
          let begun : Tx := ⟨all.head?.getD [], [], x.wire⟩
          ((s.line l).transfer = none → (t.line l).tx = begun) ∧
          ∀ r, (s.line l).transfer = some r →
            (r.phase = .ending → (t.line l).tx = { begun with waiting := all.tail.getLast?.toList }) ∧
            (r.phase ≠ .ending →
              (t.line l).tx = begun.send (ascii "!RESET " ++ dec (r.first + r.count - r.next) ++ crlf))) ∧
        (s.resetDue = false → s.sysReset = some l → (s.line l).transfer = none →
          (t.line l).tx = (s.line l).tx.flush)) ∧
      (∀ i, t.sheet i = match s.sheet i with
        | none => none
        | some sh =>
          if sh.state = .retiring ∨ sh.state = .filling ∧ sh.filledRows = 0 ∧ sh.origin = .received then none
          else some { sh with
            readers := 0, writers := 0
            state := if sh.state = .filling then (if 0 < sh.filledRows then .complete else .defined) else sh.state
            completedAt :=
              if sh.state = .filling ∧ 0 < sh.filledRows then some s.runSeconds else sh.completedAt }) ∧
      (∀ i sh, s.latest = some i → s.sheet i = some sh → t.latest = if (t.sheet i).isSome then some i else none) ∧
      (s.latest = none → t.latest = none) ∧
      (∀ k, (t.reception k).isSome = (s.reception k).isSome) ∧
      (∀ k r q, s.reception k = some r → t.reception k = some q →
        q = (if r.isOpen then
          { r with
            isOpen := false, endSecond := some s.runSeconds, timer := none, members := r.members.map s.abortedMember
            binding := q.binding }
          else { r with binding := q.binding }) ∧
        (r.isOpen = true → ∀ y ∈ q.members, y.cause.isSome) ∧
        (r.binding = none → q.binding = none) ∧
        ∀ i, r.binding = some i → (s.sheet i).isSome → q.binding = if (t.sheet i).isSome then some i else none) ∧
      (∀ a, a / 32768 ∈ t.heldBands → t.mem.read a = s.mem.read a)

/-- RESET_COMPLETE: with the RESET input released, the reset completes and every line's flags are exactly {RESET}, with
SCHED beside it when a schedule store write failed within the reset; a write that completed within the reset is taken. While
the input is asserted the reset does not end (log entry 19). SYS.RESET is answered OK, makes its interpreter HELD and makes
the reset due; one taken while another line's SYS.RESET is outstanding is not answered (log entry 20); an argument is refused
with SYNTAX. -/
def Obligations.ResetCompleteAndSysReset : Prop :=
  (∀ s : State, s.powered = true → s.inReset = true → s.resetInput = false →
    ∃ t, exec .resetComplete s = .next t ∧ t.inReset = false ∧
      t = { s with inReset := false, writer := t.writer, image := t.image, lines := t.lines } ∧
      ((∀ w, s.writer = some w → w.completed = none) → t.writer = s.writer ∧ t.image = s.image ∧
        ∀ l, t.line l = { s.line l with flags := { FlagSet.empty with reset := true } }) ∧
      (∀ w agrees, s.writer = some w → w.completed = some agrees → w.line = none → t.writer = none ∧
        (agrees = true → t.image.entries = w.snapshot ∧ t.image.check = Config.imageCheck w.snapshot) ∧
        (agrees = false → t.image.valid = false) ∧
        ∀ l, t.line l = { s.line l with flags := { FlagSet.empty with reset := true, sched := !agrees } })) ∧
  (∀ s : State, s.powered = true → s.resetInput = true → exec .resetComplete s = .next s) ∧
  (∀ (s : State) (l : LineId) (h : InHand), s.takes l .sysReset [] h →
    (s.sysReset = none →
      exec (.sysReset l []) s = .next ({ s.ready l h with sysReset := some l }.answer l .okHold h.advance)) ∧
    (s.sysReset.isSome → exec (.sysReset l []) s = .next ((s.ready l h).answer l .hold h.advance))) ∧
  (∀ (s : State) (l : LineId) (h : InHand) (a : Text) (as : List Text), s.takes l .sysReset (a :: as) h →
    exec (.sysReset l (a :: as)) s = .next ((s.ready l h).answer l (.error .syntaxError) h.advance))

/-! ### Picture, quality and timing -/

/-- R43: the gray level of an element from its frequency against the member's tones. -/
def Obligations.GrayLevelOfFrequency : Prop :=
  ∀ cfg : ChanConfig, cfg.black + 200 ≤ cfg.white → cfg.white ≤ cfg.black + 3100 →
    (∀ f, f ≤ cfg.black → grayLevel cfg f = 0) ∧
    (∀ f, cfg.white ≤ f → grayLevel cfg f = 15) ∧
    (∀ f, cfg.black < f → f < cfg.white →
      grayLevel cfg f = (30 * (f - cfg.black) + (cfg.white - cfg.black)) / (2 * (cfg.white - cfg.black)) ∧
      2 * (cfg.white - cfg.black) * grayLevel cfg f ≤ 30 * (f - cfg.black) + (cfg.white - cfg.black) ∧
      30 * (f - cfg.black) + (cfg.white - cfg.black) < 2 * (cfg.white - cfg.black) * (grayLevel cfg f + 1)) ∧
    (∀ f g, f ≤ g → grayLevel cfg f ≤ grayLevel cfg g) ∧
    (∀ k, k ≤ 15 → ∃ f, cfg.black ≤ f ∧ f ≤ cfg.white ∧ grayLevel cfg f = k) ∧
    (cfg.sense = .norm → ∀ f, storedGray cfg f = grayLevel cfg f)

/-- R4 and R44: under NORM a sample is white at w - h and above and black at b + h and below, h being (w - b) div 4, never
both; INV exchanges the two judgments and stores 15 - g, and acts on no strike, span quality or carrier. -/
def Obligations.SenseExchangesWhiteAndBlack : Prop :=
  ∀ cfg : ChanConfig, cfg.black + 200 ≤ cfg.white →
    let h := (cfg.white - cfg.black) / 4
    let norm := { cfg with sense := .norm }
    let inv := { cfg with sense := .inv }
    50 ≤ h ∧ cfg.black + h < cfg.white - h ∧
    (∀ f, (judgeTone norm f = .white ↔ cfg.white - h ≤ f) ∧ (judgeTone norm f = .black ↔ f ≤ cfg.black + h) ∧
      (judgeTone inv f = .white ↔ f ≤ cfg.black + h) ∧ (judgeTone inv f = .black ↔ cfg.white - h ≤ f) ∧
      storedGray inv f + grayLevel inv f = 15 ∧ grayLevel inv f = grayLevel norm f ∧
      isStrike inv f = isStrike norm f) ∧
    (∀ xs, rateSpan inv xs = rateSpan norm xs) ∧
    ∀ at_ a b, hasCarrier inv at_ a b = hasCarrier norm at_ a b

/-- R45 to R49: an element strikes when it lies more than 100 Hz outside the tones; a span of n elements has the floor of
its mean envelope A and k strikes, and the quality A div 512 less (k × 128) div n, clamped to 0-63; the eight spans of a row
cut its elements without gap or overlap. -/
def Obligations.SpanQuality : Prop :=
  (∀ (cfg : ChanConfig) (f : Nat), isStrike cfg f = true ↔ (f : Int) < cfg.black - 100 ∨ (f : Int) > cfg.white + 100) ∧
  (∀ cfg : ChanConfig, cfg.wf → isStrike cfg 0 = true ∧ isStrike cfg 4800 = true) ∧
  (∀ (cfg : ChanConfig) (xs : List Sample), xs ≠ [] → (∀ x ∈ xs, x.env ≤ 32767) →
    let k := xs.countP fun x => isStrike cfg x.freq
    let a := (xs.map Sample.env).sum / xs.length
    a ≤ 32767 ∧ k * 128 / xs.length ≤ 128 ∧ rateSpan cfg xs ≤ 63 ∧
    (rateSpan cfg xs : Int) = max 0 ((a : Int) / 512 - (k * 128 / xs.length : Nat))) ∧
  ∀ (w : Nat) (xs : List Sample), xs.length = w → w % 8 = 0 →
    (List.range 8).flatMap (fun k => spanElements w k xs) = xs ∧ ∀ k, k < 8 → (spanElements w k xs).length = w / 8

/-- R27 to R30, R35 and R39: the drift a LEARN reception takes from a lock run is the excess of the measured spread over
the nominal one in parts per million, rounded half away from zero and clamped to -300..+300; a FIXED one takes its value;
the effective period is the floor of P × 256 × (1,000,000 + d) / 1,000,000 and the reference the last run marker. -/
def Obligations.LockRunSetsTheTiming : Prop :=
  ∀ (r : Reception) (run : List Nat) (first last : Nat), 2 ≤ run.length → run.head? = some first →
    run.getLast? = some last → 0 < nominalPeriod r.lpm →
    let p := nominalPeriod r.lpm
    let nominal : Nat := (run.length - 1) * p
    let delta : Int := (last : Int) - first - nominal
    let rounded : Int :=
      if 0 ≤ delta then (2 * delta * 1000000 + nominal) / (2 * nominal)
      else -((2 * -delta * 1000000 + nominal) / (2 * nominal))
    ∃ (d : Int) (peff : Nat), lockTiming r run = .locked d peff (last * 256) ∧
      (r.drift = .learn →
        d = (if rounded < -300 then -300 else if 300 < rounded then 300 else rounded) ∧
        2 * (rounded * nominal - delta * 1000000) ≤ nominal ∧ 2 * (delta * 1000000 - rounded * nominal) ≤ nominal) ∧
      (∀ v, r.drift = .fixed v → d = v) ∧
      (-300 ≤ d → d ≤ 300 → (peff : Int) = (p : Int) * 256 * (1000000 + d) / 1000000)

/-! ### What a member hears -/

/-- R5: a run of n white samples behind a sample that was not white, ended by a black sample, is a marker at the run's first
sample exactly when n lies from P/20 - T to P/20 + T; a run ended by a sample heard as neither is none. R6: a pattern is
heard at the end of the thirtieth consecutive qualifying window, and the count then starts again; a window that qualifies
for one pattern sets the other's count to 0, and one that qualifies for neither sets both to 0. -/
def Obligations.MarkersAndPatterns : Prop :=
  (∀ (d : Detector) (p e n : Nat) (before : Tone), d.last = some before → before ≠ .white → d.whiteFrom = none →
    0 < n →
    (hearWhite d e n).markerAt p (e + n) .neither = none ∧ (hearWhite d e n).markerAt p (e + n) .white = none ∧
    (hearWhite d e n).markerAt p (e + n) .black =
      if p / 20 - p / 100 ≤ n ∧ n ≤ p / 20 + p / 100 then some e else none) ∧
  (∀ (d : Detector) (n : Nat), d.opening = n → n < 30 →
    d.heard (some .opening) = (if n = 29 then some .opening else none) ∧
    (d.countWindow (some .opening)).opening = (if n = 29 then 0 else n + 1) ∧
    (d.countWindow (some .opening)).closing = 0) ∧
  (∀ (d : Detector) (n : Nat), d.closing = n → n < 30 →
    d.heard (some .closing) = (if n = 29 then some .closing else none) ∧
    (d.countWindow (some .closing)).closing = (if n = 29 then 0 else n + 1) ∧
    (d.countWindow (some .closing)).opening = 0) ∧
  (∀ d : Detector, d.heard none = none ∧ (d.countWindow none).opening = 0 ∧ (d.countWindow none).closing = 0) ∧
  ∀ squelch changes sum : Nat,
    (windowPattern squelch changes sum = some .opening ↔ squelch ≤ sum / 960 ∧ 32 ≤ changes ∧ changes ≤ 38) ∧
    (windowPattern squelch changes sum = some .closing ↔ squelch ≤ sum / 960 ∧ 44 ≤ changes ∧ changes ≤ 50)

/-- R9 and R10: while the reception is UNTIMED a marker starts a run in LISTENING; collecting, it extends a run it lies
within tolerance of and starts the run anew otherwise; the run that reaches K makes the member lock, with its lock report
carrying the run and its run cleared; a locked member's marker has no effect. R11, R12: once the member has the line timing
a marker enters its period reports, and in IMAGING it is picture. -/
def Obligations.MarkerActsOnTheRun : Prop :=
  (∀ (c : Channel) (m : Membership) (e : Nat), c.member = some m → m.timing.isSome →
    (m.phase = .imaging → c.onMarker e = c) ∧
    (m.phase ≠ .imaging → c.onMarker e = { c with member := some { m with markers := e :: m.markers } })) ∧
  ∀ (c : Channel) (m : Membership) (e : Nat), c.member = some m → m.timing = none →
    (m.phase = .listening → c.onMarker e = { c with
      member := some { m with phase := .collecting, run := [e] },
      stateNotices := c.stateNotices ++ [⟨m.reception, .phasing⟩] }) ∧
    (m.phase = .locked → c.onMarker e = c) ∧
    ∀ last front, m.phase = .collecting → m.run = front ++ [last] →
      let p := nominalPeriod m.lpm
      let run := if last + p - p / 100 ≤ e ∧ e ≤ last + p + p / 100 then m.run ++ [e] else [e]
      (run.length < c.cfg.lock → c.onMarker e = { c with member := some { m with run := run } }) ∧
      (c.cfg.lock ≤ run.length → c.onMarker e = { c with
        member := some { m with phase := .locked, run := [], lost := 0 },
        stateNotices := c.stateNotices ++ [⟨m.reception, .locked⟩],
        lockReports := c.lockReports ++ [⟨m.reception, run⟩] })

/-- SAMPLE_TICK (R1): the sample clock advances by 256; an IDLE channel is unchanged; what a member sends is put behind what
it sent before. A member keeps the sample as its newest (as many as log entry 10 says), judges it, and its detectors follow
(R4 to R6): a white run begins at a white sample behind one that was not white, a change is a white sample whose nearest
earlier clear judgment was black, and a window's count and envelope sum start anew at every multiple of 960. A black sample
behind a white run of a marker's length is a marker (R5, R9). At the end of a whole window the pattern counts follow; the
closing pattern heard ends the membership CLOSED (R16), the opening pattern restarts the listen timer outside IMAGING (R17).
Then a row ends once the clock has reached the next row's start (R14), and outside IMAGING a member with the line timing
reports the period that has ended (R12): marker, carrier and tone, the line counted when the member is locked, FADED at its
limit (R15). What falls on one sample comes in this order, by log entry 8. -/
def Obligations.SampleTickAdvancesTheClock : Prop :=
  (∀ (heard : Quad Sample) (s : State), s.powered = true → s.inReset = false →
    ∃ t, exec (.sampleTick heard) s = .next t ∧ t = { s with clock := s.clock + 256, chans := t.chans } ∧
      ∀ ch, ((s.chan ch).member = none → t.chan ch = s.chan ch) ∧
        (t.chan ch).cfg = (s.chan ch).cfg ∧ (t.chan ch).tune = (s.chan ch).tune ∧
        (t.chan ch).lockedNotices = (s.chan ch).lockedNotices ∧ (t.chan ch).assignments = (s.chan ch).assignments ∧
        (t.chan ch).endOrders = (s.chan ch).endOrders ∧
        (s.chan ch).offers <+: (t.chan ch).offers ∧ (s.chan ch).endNotices <+: (t.chan ch).endNotices ∧
        (s.chan ch).periodReports <+: (t.chan ch).periodReports ∧
        (s.chan ch).lockReports <+: (t.chan ch).lockReports ∧
        ∀ m, (s.chan ch).member = some m →
          (∀ m', (t.chan ch).member = some m' → m'.reception = m.reception ∧ m'.lpm = m.lpm ∧ m'.width = m.width ∧
            m'.height = m.height) ∧
          ((t.chan ch).member = none → ∃ cause, (t.chan ch).endNotices =
            (s.chan ch).endNotices ++ [⟨m.reception, cause, decide (m.phase = .imaging)⟩] ∧
            (cause = .closed ∨ cause = .faded ∨ cause = .full)) ∧
          let x := heard.get ch
          let idx := s.clock / 256
          let p := nominalPeriod m.lpm
          let tone := judgeTone (s.chan ch).cfg x.freq
          let d : Detector := { m.det with
            last := some tone
            lastClear := if tone = .neither then m.det.lastClear else some tone
            whiteFrom :=
              if tone = .white then
                (if m.det.whiteFrom.isSome then m.det.whiteFrom
                else if m.det.last = some .black ∨ m.det.last = some .neither then some idx else none)
              else none
            changes := (if idx % 960 = 0 then 0 else m.det.changes) +
              if tone = .white ∧ m.det.lastClear = some .black then 1 else 0
            windowSum := (if idx % 960 = 0 then 0 else m.det.windowSum) + x.env }
          let whole := idx % 960 = 959 ∧ m.det.firstWindow + 959 ≤ idx ∧ (s.chan ch).cfg.squelch ≤ d.windowSum / 960
          let opens := whole ∧ 32 ≤ d.changes ∧ d.changes ≤ 38
          let closes := whole ∧ 44 ≤ d.changes ∧ d.changes ≤ 50
          let from_ := match m.timing with
            | none => idx + 1 - 2 * p
            | some k => if m.phase = .imaging then (m.rowStart - k.peff) / 256 else (k.ref + (k.period - 1) * k.peff) / 256
          let judged : Channel := { s.chan ch with
            member := some { m with
              kept := (x :: m.kept).take (idx + 1 - from_)
              toneEnds := if opens ∨ closes then idx :: m.toneEnds else m.toneEnds
              det :=
                if idx % 960 = 959 ∧ m.det.firstWindow + 959 ≤ idx then
                  { d with
                    opening := if opens ∧ d.opening < 29 then d.opening + 1 else 0
                    closing := if closes ∧ d.closing < 29 then d.closing + 1 else 0 }
                else d } }
          let marked : Channel := match m.det.whiteFrom with
            | some e =>
              if tone = .black ∧ p / 20 - p / 100 ≤ idx - e ∧ idx - e ≤ p / 20 + p / 100 then judged.onMarker e else judged
            | none => judged
          (closes ∧ 29 ≤ d.closing → t.chan ch = { marked with
            member := none
            endNotices := (s.chan ch).endNotices ++ [⟨m.reception, .closed, decide (m.phase = .imaging)⟩] }) ∧
          (¬(closes ∧ 29 ≤ d.closing) → ∀ m1, marked.member = some m1 →
            let m2 : Membership :=
              if opens ∧ 29 ≤ d.opening ∧ m1.phase ≠ .imaging then
                { m1 with listen := some (idx + 1 + m1.listenLimit * 60 * 9600) }
              else m1
            let on : Channel := { marked with member := some m2 }
            (m.timing = none → t.chan ch = on) ∧
            ∀ k, m.timing = some k →
              (m.phase = .imaging → t.chan ch =
                if m.rowStart + k.peff ≤ (idx + 1) * 256 then on.endRow ch (idx + 1) k.peff m2 else on) ∧
              (m.phase ≠ .imaging → t.chan ch =
                if k.ref + (k.period + 1) * k.peff ≤ (idx + 1) * 256 then on.report ch (idx + 1) k m2 else on))) ∧
  ∀ (ch : Chan) (next : Nat) (k : MemberTiming) (m : Membership) (c : Channel),
    let a := (k.ref + k.period * k.peff) / 256
    let b := (k.ref + (k.period + 1) * k.peff) / 256
    let tol := nominalPeriod m.lpm / 100
    ∃ rep : PeriodReport, rep.reception = m.reception ∧ rep.period = k.period ∧
      (rep.marker = true ↔ ∃ e ∈ m.markers, a ≤ e + tol ∧ e ≤ a + tol) ∧
      (rep.tone = true ↔ ∃ w ∈ m.toneEnds, a ≤ w ∧ w < b) ∧
      rep.carrier = hasCarrier c.cfg (m.sampleAt ch next) a b ∧
      let lost := if m.phase = .locked then (if rep.carrier then 0 else m.lost + 1) else m.lost
      let faded := m.phase = .locked ∧ rep.carrier = false ∧ c.cfg.lost ≤ lost
      (faded → c.report ch next k m = { c with
        periodReports := c.periodReports ++ [rep], member := none
        endNotices := c.endNotices ++ [⟨m.reception, .faded, false⟩] }) ∧
      (¬faded → c.report ch next k m = { c with
        periodReports := c.periodReports ++ [rep]
        member := some { m with
          lost := lost, timing := some { k with period := k.period + 1 }
          markers := m.markers.filter fun e => b ≤ e + tol
          toneEnds := m.toneEnds.filter fun w => b ≤ w } })

/-- R14, R15, R40, R46 to R50, R55: at the end of a row the member forms the record of its current row from the elements the
timing places, its eight qualities those of the eight spans of the elements, offers it, counts a line without carrier, and
then ends FADED at its lost-line limit, ends FULL at the sheet's height, or goes on with the next row. R7: a line has carrier
exactly when the floor of the mean envelope of its samples reaches the squelch. What an element takes from a sample that is no
longer kept is left open (log entry 10). -/
def Obligations.RowEndOffersOneRecord : Prop :=
  (∀ (cfg : ChanConfig) (at_ : Nat → Sample) (a b : Nat), a < b →
    (hasCarrier cfg at_ a b = true ↔
      cfg.squelch * (b - a) ≤ ((List.range (b - a)).map fun k => (at_ (a + k)).env).sum)) ∧
  ∀ (ch : Chan) (next peff : Nat) (m : Membership) (c : Channel),
    let element (j : Nat) : Sample := m.sampleAt ch next ((m.rowStart + j * peff / m.width) / 256)
    ∃ rec : LineRecord, (c.endRow ch next peff m).offers = c.offers ++ [rec] ∧
      rec.chan = ch ∧ rec.reception = m.reception ∧ rec.row = m.row ∧ rec.width = m.width ∧
      rec.grays.length = m.width ∧ rec.quals.length = 8 ∧ (∀ g ∈ rec.grays, g ≤ 15) ∧ (∀ q ∈ rec.quals, q ≤ 63) ∧
      (∀ j, j < m.width → rec.grays[j]? = some (storedGray c.cfg (element j).freq)) ∧
      (∀ k, k < 8 → rec.quals[k]? = some (rateSpan c.cfg
        ((List.range (m.width / 8)).map fun j => element (k * (m.width / 8) + j)))) ∧
      let lost := if hasCarrier c.cfg (m.sampleAt ch next) (m.rowStart / 256) ((m.rowStart + peff) / 256) then 0
        else m.lost + 1
      (0 < lost → c.cfg.lost ≤ lost → c.endRow ch next peff m = { c with
        offers := c.offers ++ [rec], member := none,
        endNotices := c.endNotices ++ [⟨m.reception, .faded, decide (m.phase = .imaging)⟩] }) ∧
      ((lost = 0 ∨ lost < c.cfg.lost) → m.height ≤ m.row + 1 → c.endRow ch next peff m = { c with
        offers := c.offers ++ [rec], member := none,
        endNotices := c.endNotices ++ [⟨m.reception, .full, decide (m.phase = .imaging)⟩] }) ∧
      ((lost = 0 ∨ lost < c.cfg.lost) → m.row + 1 < m.height → c.endRow ch next peff m = { c with
        offers := c.offers ++ [rec],
        member := some { m with lost := lost, row := m.row + 1, rowStart := m.rowStart + peff } })

/-! ### Timers, messages and commands of a channel -/

/-- R9, R17: RUN_DEADLINE returns a collecting member whose deadline the sample clock has reached to LISTENING with an empty
run and its listen timer as it was. LISTEN_TIMER_EXPIRY ends a member in LISTENING or PHASING (collecting) SILENT and only
stops the timer of a locked one. That each is taken only once its time has come is R9's and R17's; that it may be taken
later is the model's choice (log entry 13). Before its time, for a member that is not collecting or whose timer is stopped, and
for an IDLE channel, neither changes anything. -/
def Obligations.DeadlineAndListenTimer : Prop :=
  (∀ (ch : Chan) (s : State), s.powered = true → (s.chan ch).member = none →
    exec (.runDeadline ch) s = .next s ∧ exec (.listenTimerExpiry ch) s = .next s) ∧
  ∀ (ch : Chan) (s : State) (m : Membership), s.powered = true → (s.chan ch).member = some m →
    (m.phase ≠ .collecting → exec (.runDeadline ch) s = .next s) ∧
    (∀ front last, m.run = front ++ [last] →
      s.clock / 256 < last + nominalPeriod m.lpm + nominalPeriod m.lpm / 20 + 2 * (nominalPeriod m.lpm / 100) + 1 →
      exec (.runDeadline ch) s = .next s) ∧
    (m.listen = none → exec (.listenTimerExpiry ch) s = .next s) ∧
    (∀ front last, m.phase = .collecting → m.run = front ++ [last] →
      let p := nominalPeriod m.lpm
      last + p + p / 20 + 2 * (p / 100) + 1 ≤ s.clock / 256 →
      exec (.runDeadline ch) s = .next (s.updChan ch fun c => { c with
        member := some { m with phase := .listening, run := [] },
        stateNotices := c.stateNotices ++ [⟨m.reception, .listening⟩] })) ∧
    (∀ e, m.listen = some e → e ≤ s.clock / 256 →
      ((m.phase = .listening ∨ m.phase = .collecting) →
        exec (.listenTimerExpiry ch) s = .next (s.updChan ch fun c => { c with
          member := none, endNotices := c.endNotices ++ [⟨m.reception, .silent, false⟩] })) ∧
      (m.phase = .locked →
        exec (.listenTimerExpiry ch) s = .next (s.updChan ch fun c => { c with
          member := some { m with listen := none } }))) ∧
    (∀ e, m.listen = some e → s.clock / 256 < e → exec (.listenTimerExpiry ch) s = .next s)

/-- R11, R13, R14, R31: the LOCKED notice in front gives the member the timing, to report from the first period, at least
the first, that begins at or after the moment of the taking; one collecting a run becomes locked with its run discarded
and lost-line count 0, one in LISTENING stays there, and the member that locked stays locked. The first-row assignment in
front makes the member enter IMAGING at that row with its timer stopped and its lost-line count 0; at a row not less than
the sheet's height it ends FULL at once, and before the row's end it waits for it. A notice or an assignment that finds no
such member is taken without effect. That the first period reported is at least 1, that a member already past its row's
end completes one row with the assignment, and that the member that ends FULL at once counts as having been in IMAGING are
the model's readings (log entries 12, 11 and 34). -/
def Obligations.LockedNoticeAndFirstRow : Prop :=
  (∀ (ch : Chan) (s : State) (n : LockedNotice) (rest : List LockedNotice), s.powered = true →
    (s.chan ch).lockedNotices = n :: rest →
    ((∀ m, (s.chan ch).member = some m → m.reception ≠ n.reception) →
      exec (.lockedNotice ch) s = .next (s.updChan ch fun c => { c with lockedNotices := rest })) ∧
    ∀ m, (s.chan ch).member = some m → m.reception = n.reception → m.timing = none →
      let first (k : Nat) : Prop := 1 ≤ k ∧ (0 < n.peff → s.clock ≤ n.ref + k * n.peff) ∧
        ∀ j, 1 ≤ j → j < k → n.ref + j * n.peff < s.clock
      (m.phase = .listening → ∃ k, first k ∧ exec (.lockedNotice ch) s = .next (s.updChan ch fun c => { c with
        lockedNotices := rest, member := some { m with timing := some ⟨n.ref, n.peff, k⟩, run := [] } })) ∧
      (m.phase = .locked → ∃ k, first k ∧ exec (.lockedNotice ch) s = .next (s.updChan ch fun c => { c with
        lockedNotices := rest, member := some { m with timing := some ⟨n.ref, n.peff, k⟩, run := [] } })) ∧
      (m.phase = .collecting → ∃ k, first k ∧ exec (.lockedNotice ch) s = .next (s.updChan ch fun c => { c with
        lockedNotices := rest,
        stateNotices := c.stateNotices ++ [⟨m.reception, .locked⟩],
        member := some { m with timing := some ⟨n.ref, n.peff, k⟩, run := [], phase := .locked, lost := 0 } }))) ∧
  (∀ (ch : Chan) (s : State) (n : Assignment) (rest : List Assignment), s.powered = true →
    (s.chan ch).assignments = n :: rest →
    ((∀ m, (s.chan ch).member = some m → m.reception ≠ n.reception) →
      exec (.firstRowAssignment ch) s = .next (s.updChan ch fun c => { c with assignments := rest })) ∧
    ∀ m, (s.chan ch).member = some m → m.reception = n.reception → m.phase ≠ .imaging →
      (m.height ≤ n.row → exec (.firstRowAssignment ch) s = .next (s.updChan ch fun c => { c with
        assignments := rest, stateNotices := c.stateNotices ++ [⟨m.reception, .imaging⟩],
        member := none, endNotices := c.endNotices ++ [⟨m.reception, .full, true⟩] })) ∧
      (n.row < m.height → ∀ k, m.timing = some k →
        let entered : Membership := { m with
          phase := .imaging, run := [], listen := none, lost := 0, row := n.row, rowStart := n.start,
          markers := [], toneEnds := [] }
        let told : Channel := { s.chan ch with
          assignments := rest, member := some entered,
          stateNotices := (s.chan ch).stateNotices ++ [⟨m.reception, .imaging⟩] }
        exec (.firstRowAssignment ch) s = .next (s.updChan ch fun _ =>
          if n.start + k.peff ≤ s.clock / 256 * 256 then told.endRow ch (s.clock / 256) k.peff entered else told)))

/-- R18, R19, R24: the end order in front ends the membership of the reception it names with its cause and is ignored by any
other channel; CHAN.ABORT ends the membership of its channel ABORTED, and finds an IDLE channel unchanged, answering OK
either way. The end notice says whether the member was in IMAGING. TUNE_MESSAGE_SENT begins the waiting message, if any. -/
def Obligations.MembershipsEndByOrder : Prop :=
  (∀ (ch : Chan) (s : State) (o : EndOrder) (rest : List EndOrder), s.powered = true →
    (s.chan ch).endOrders = o :: rest →
    (∀ m, (s.chan ch).member = some m → m.reception = o.reception →
      exec (.endOrder ch) s = .next (s.updChan ch fun c => { c with
        endOrders := rest, member := none,
        endNotices := c.endNotices ++ [⟨m.reception, o.cause, decide (m.phase = .imaging)⟩] })) ∧
    ((∀ m, (s.chan ch).member = some m → m.reception ≠ o.reception) →
      exec (.endOrder ch) s = .next (s.updChan ch fun c => { c with endOrders := rest }))) ∧
  (∀ (ch : Chan) (s : State) (msg : Text), s.powered = true → (s.chan ch).tune.sending = some msg →
    exec (.tuneMessageSent ch) s = .next (s.updChan ch fun c => { c with tune := ⟨c.tune.waiting, none⟩ })) ∧
  ∀ (s : State) (l : LineId) (h : InHand) (a : Text), s.takes l .chanAbort [a] h →
    (∀ ch m, chan? a = some ch → (s.chan ch).member = some m →
      exec (.chanAbort l [a]) s = .next (((s.ready l h).updChan ch fun c => { c with
        member := none,
        endNotices := c.endNotices ++ [⟨m.reception, .aborted, decide (m.phase = .imaging)⟩] }).answer l .ok h.advance)) ∧
    (∀ ch, chan? a = some ch → (s.chan ch).member = none →
      exec (.chanAbort l [a]) s = .next ((s.ready l h).answer l .ok h.advance)) ∧
    (chan? a = none → exec (.chanAbort l [a]) s = .next ((s.ready l h).answer l (.error .badArg) h.advance))

/-- R2, R21, R22: a channel number other than 0-3 is refused with BAD_ARG; on an IDLE channel the five configuration
commands hold the settings given, the numbers clamped and the tones refused with BAD_ARG when the white does not exceed the
black by 200 Hz; on a channel that is a member an acceptable command is refused with ACTIVE and nothing is changed. A channel
argument is a number that is a channel's. -/
def Obligations.ChannelSettings : Prop :=
  (∀ (c : Text) (ch : Chan), chan? c = some ch ↔ number? c = some ch.num) ∧
  (∀ (s : State) (l : LineId) (h : InHand) (c v w : Text), chan? c = none →
    let bad (i : Instr) : Prop := exec i s = .next ((s.ready l h).answer l (.error .badArg) h.advance)
    (s.takes l .chanTones [c, v, w] h → bad (.chanTones l [c, v, w])) ∧
    (s.takes l .chanSense [c, v] h → bad (.chanSense l [c, v])) ∧
    (s.takes l .chanSquelch [c, v] h → bad (.chanSquelch l [c, v])) ∧
    (s.takes l .chanLost [c, v] h → bad (.chanLost l [c, v])) ∧
    (s.takes l .chanLock [c, v] h → bad (.chanLock l [c, v]))) ∧
  ∀ (s : State) (l : LineId) (h : InHand) (c : Text) (ch : Chan), chan? c = some ch →
    let held (i : Instr) (f : ChanConfig → ChanConfig) : Prop :=
      ((s.chan ch).member = none → exec i s = .next (((s.ready l h).updChan ch fun x => { x with cfg := f x.cfg }).answer
        l .ok h.advance)) ∧
      ((s.chan ch).member.isSome → exec i s = .next ((s.ready l h).answer l (.error .active) h.advance))
    let bad (i : Instr) : Prop := exec i s = .next ((s.ready l h).answer l (.error .badArg) h.advance)
    (∀ b w black white, s.takes l .chanTones [c, b, w] h → ClampsTo 300 3400 1500 b black →
      ClampsTo 300 3400 2300 w white →
      (black + 200 ≤ white →
        held (.chanTones l [c, b, w]) fun cfg => { cfg with black := black, white := white }) ∧
      (white < black + 200 → bad (.chanTones l [c, b, w]))) ∧
    (∀ v, s.takes l .chanSense [c, v] h →
      (v = ascii "NORM" → held (.chanSense l [c, v]) fun cfg => { cfg with sense := .norm }) ∧
      (v = ascii "INV" → held (.chanSense l [c, v]) fun cfg => { cfg with sense := .inv }) ∧
      (v ≠ ascii "NORM" → v ≠ ascii "INV" → bad (.chanSense l [c, v]))) ∧
    (∀ v, s.takes l .chanSquelch [c, v] h →
      (∀ n, ClampsTo 0 32767 800 v n → held (.chanSquelch l [c, v]) fun cfg => { cfg with squelch := n }) ∧
      ((¬∃ n, ClampsTo 0 32767 800 v n) → bad (.chanSquelch l [c, v]))) ∧
    (∀ v, s.takes l .chanLost [c, v] h →
      (∀ n, ClampsTo 1 255 40 v n → held (.chanLost l [c, v]) fun cfg => { cfg with lost := n }) ∧
      ((¬∃ n, ClampsTo 1 255 40 v n) → bad (.chanLost l [c, v]))) ∧
    (∀ v, s.takes l .chanLock [c, v] h →
      (∀ n, ClampsTo 4 16 8 v n → held (.chanLock l [c, v]) fun cfg => { cfg with lock := n }) ∧
      ((¬∃ n, ClampsTo 4 16 8 v n) → bad (.chanLock l [c, v])))

/-! ### The reception manager -/

/-- R25, R27, R31, R113: the state notice in front sets the sender's mirror, unless the manager has set it to IMAGING itself
or the sender's end is recorded (log entry 4). The lock report in front of an active member of an OPEN UNTIMED reception
sets its timing and sends the LOCKED notice, with the effective period and the reference, to every active member; on a LOCKED
or ANCHORED reception, or from a sender that is no active member of an OPEN one, it is discarded. A member is active while the
manager has not taken its end notice (the model's choice, log entry 38). -/
def Obligations.StateNoticeAndLockReport : Prop :=
  (∀ (s : State) (n : Nat) (ch : Chan) (k : Nat) (r : Reception) (m : Member), s.openMember n ch = some (k, r, m) ↔
    s.findRec n = some k ∧ s.reception k = some r ∧ r.isOpen = true ∧ r.members.find? (fun y => y.chan == ch) = some m ∧
      m.cause = none) ∧
  (∀ (ch : Chan) (s : State) (n : StateNotice) (rest : List StateNotice), s.powered = true →
    (s.chan ch).stateNotices = n :: rest →
    let took := s.updChan ch fun c => { c with stateNotices := rest }
    (s.openMember n.reception ch = none → exec (.stateNotice ch) s = .next took) ∧
    ∀ k r m, s.openMember n.reception ch = some (k, r, m) →
      exec (.stateNotice ch) s = .next
        (if m.mirror = .imaging then took
        else took.updRec k fun x => { x with
          members := x.members.map fun y => if y.chan = ch then { y with mirror := n.mirror } else y })) ∧
  (∀ (ch : Chan) (s : State) (n : LockReport) (rest : List LockReport), s.powered = true →
    (s.chan ch).lockReports = n :: rest →
    let took := s.updChan ch fun c => { c with lockReports := rest }
    (s.openMember n.reception ch = none → exec (.lockReport ch) s = .next took) ∧
    ∀ k r m, s.openMember n.reception ch = some (k, r, m) →
      (r.timing ≠ .untimed → exec (.lockReport ch) s = .next took) ∧
      ∀ d peff ref, r.timing = .untimed → lockTiming r n.run = .locked d peff ref →
        exec (.lockReport ch) s = .next
          ((took.updRec k fun x => { x with timing := .locked d peff ref }).mapChans fun dest c =>
            if (r.members.any fun y => y.chan = dest ∧ y.cause = none) then
              { c with lockedNotices := c.lockedNotices ++ [⟨r.number, ref, peff⟩] }
            else c))

/-- R33 to R37: the period report in front of an active member in LISTENING or PHASING. On a LOCKED reception it anchors
exactly when the sender's last-marker mark says yes and the report says carrier and no marker: phase0 becomes the period's
start and the sender is assigned row 0. On an ANCHORED one it assigns row m - m0 when the period begins at or after phase0
and the report says carrier, no marker and no tone. Otherwise it sets the sender's mark. A report of a sender that has
entered IMAGING or is no active member is discarded; which member is active while its end notice is in flight is the model's
choice (log entry 38). -/
def Obligations.PeriodReportAnchorsOrBorrows : Prop :=
  ∀ (ch : Chan) (s : State) (n : PeriodReport) (rest : List PeriodReport), s.powered = true →
    (s.chan ch).periodReports = n :: rest →
    let took := s.updChan ch fun c => { c with periodReports := rest }
    let assign (st : State) (k : Nat) (number row start : Nat) : State :=
      (st.updRec k fun x => { x with members := x.members.map fun y =>
        if y.chan = ch then { y with firstRow := some row, mirror := .imaging, mark := none } else y }).updChan ch fun c =>
          { c with assignments := c.assignments ++ [⟨number, row, start⟩] }
    let marked (k : Nat) : State := took.updRec k fun x => { x with members := x.members.map fun y =>
      if y.chan = ch then { y with mark := some n.marker } else y }
    (s.openMember n.reception ch = none → exec (.periodReport ch) s = .next took) ∧
    ∀ k r m, s.openMember n.reception ch = some (k, r, m) →
      (m.mirror = .imaging → exec (.periodReport ch) s = .next took) ∧
      (∀ d peff ref, m.mirror ≠ .imaging → r.timing = .locked d peff ref →
        exec (.periodReport ch) s = .next
          (if m.mark = some true ∧ n.carrier = true ∧ n.marker = false then
            assign (took.updRec k fun x => { x with timing := .anchored d peff ref (ref + n.period * peff) }) k r.number 0
              (ref + n.period * peff)
          else marked k)) ∧
      ∀ d peff ref m0, m.mirror ≠ .imaging → 0 < peff → r.timing = .anchored d peff ref (ref + m0 * peff) →
        exec (.periodReport ch) s = .next
          (if m0 ≤ n.period ∧ n.carrier = true ∧ n.marker = false ∧ n.tone = false then
            assign took k r.number (n.period - m0) (ref + n.period * peff)
          else marked k)

/-- R120, R121, R123: the end notice in front of an active member stores its cause, makes its mirror ENDED, discards its
mark, and makes its first row absent when the channel never entered IMAGING. With another active member left nothing else
happens. The last one ends the reception: it is ENDED at the present run second, its duration timer stops, an unbind for its
binding is sent, and every RECV.STOP that waits for it is answered OK (R131; log entry 14). Any other end notice is
discarded. -/
def Obligations.EndNoticeEndsTheReception : Prop :=
  ∀ (ch : Chan) (s : State) (n : EndNotice) (rest : List EndNotice), s.powered = true →
    (s.chan ch).endNotices = n :: rest →
    let took := s.updChan ch fun c => { c with endNotices := rest }
    (s.openMember n.reception ch = none → exec (.endNotice ch) s = .next took) ∧
    ∀ k r m, s.openMember n.reception ch = some (k, r, m) →
      let members := r.members.map fun y => if y.chan = ch then
        { y with cause := some n.cause, mirror := .ended, mark := none, firstRow := if n.imaged then y.firstRow else none }
        else y
      ((∃ y ∈ r.members, y.chan ≠ ch ∧ y.cause = none) →
        exec (.endNotice ch) s = .next (took.updRec k fun x => { x with members := members })) ∧
      ((∀ y ∈ r.members, y.chan ≠ ch → y.cause.isSome) →
        ∃ t, exec (.endNotice ch) s = .next t ∧
          t = { took.updRec k fun x => { x with
              members := members, isOpen := false, endSecond := some s.runSeconds, timer := none } with
            unbinds := s.unbinds ++ r.binding.toList, lines := t.lines } ∧
          ∀ l, ((∀ hand, (s.line l).interp ≠ .stopping r.number hand) → t.line l = s.line l) ∧
            ∀ hand, (s.line l).interp = .stopping r.number hand →
              t.line l = { s.line l with
                interp := if hand.todo = [] then .ready else .executing hand
                tx := (s.line l).tx.send (ascii "OK" ++ crlf) })

/-- R18, R122, R123, R131: DURATION_EXPIRY of an OPEN reception whose timer the run seconds have reached stops the timer and
sends an end order EXPIRED to every active member; before then nothing happens. RECV.STOP of an OPEN reception sends an end
order ABORTED to every active member and is answered when the reception has ended (log entry 14); of an ENDED one it answers
OK and changes nothing; a number held by no record is refused with NO_ENTRY and any other argument with BAD_ARG. -/
def Obligations.ReceptionsEndByOrder : Prop :=
  let ordered (s : State) (r : Reception) (cause : EndCause) : State := s.mapChans fun dest c =>
    if (r.members.any fun y => y.chan = dest ∧ y.cause = none) then
      { c with endOrders := c.endOrders ++ [⟨r.number, cause⟩] }
    else c
  (∀ (n k : Nat) (r : Reception) (s : State), s.powered = true → s.findRec n = some k → s.reception k = some r →
    (∀ e, r.timer = some e → e ≤ s.runSeconds → r.isOpen = true →
      exec (.durationExpiry n) s = .next (ordered (s.updRec k fun x => { x with timer := none }) r .expired)) ∧
    (∀ e, r.timer = some e → s.runSeconds < e → exec (.durationExpiry n) s = .next s)) ∧
  ∀ (s : State) (l : LineId) (h : InHand) (a : Text), s.takes l .recvStop [a] h →
    ((∀ n, number? a = some n → 255 < n) →
      exec (.recvStop l [a]) s = .next ((s.ready l h).answer l (.error .badArg) h.advance)) ∧
    ∀ n, number? a = some n → n ≤ 255 →
      (s.findRec n = none → exec (.recvStop l [a]) s = .next ((s.ready l h).answer l (.error .noEntry) h.advance)) ∧
      ∀ k r, s.findRec n = some k → s.reception k = some r →
        (r.isOpen = true →
          exec (.recvStop l [a]) s = .next ((ordered (s.ready l h) r .aborted).answer l (.stopping n) h.advance)) ∧
        (r.isOpen = false → exec (.recvStop l [a]) s = .next ((s.ready l h).answer l .ok h.advance))

/-- R112, R116: a start takes the FREE record of the lowest index, or, when none is FREE, the ENDED record with the smallest
end run second, the lower index between equals; the number it issues is the first after the last issued one, counting from
255 to 0, that no other record of the table holds. -/
def Obligations.StartTakesRecordAndNumber : Prop :=
  ∀ s : State, s.recs.length = 8 →
    (∀ k, s.reception k = none → k < 8 → s.chooseRecord ≤ k) ∧
    ((∃ k, k < 8 ∧ s.reception k = none) → s.chooseRecord < 8 ∧ s.reception s.chooseRecord = none) ∧
    ((∀ k, k < 8 → (s.reception k).isSome) → (∃ k r, s.reception k = some r ∧ r.isOpen = false) →
      (∀ k r, s.reception k = some r → r.isOpen = false → r.endSecond.isSome) →
      ∃ r e, s.reception s.chooseRecord = some r ∧ r.isOpen = false ∧ r.endSecond = some e ∧
        ∀ k q f, s.reception k = some q → q.isOpen = false → q.endSecond = some f →
          e < f ∨ e = f ∧ s.chooseRecord ≤ k) ∧
    ∀ k, k < 8 → ∃ j, j < 8 ∧ s.chooseNumber k = (s.lastNumber + 1 + j) % 256 ∧
        (∀ i r, i ≠ k → s.reception i = some r → r.number ≠ s.chooseNumber k) ∧
        ∀ i, i < j → ∃ p r, p ≠ k ∧ s.reception p = some r ∧ r.number = (s.lastNumber + 1 + i) % 256

/-- R89, R111, R113 to R118, R128: RECV.NOW whose arguments are a start's, on channels that are all IDLE and have no end
notice in flight, and for which the store has a sheet, is answered OK with the reception in progress: the chosen record is
OPEN under the number issued, MANUAL with its line, bound to the sheet and named by it, UNTIMED, with one LISTENING member
entry for each channel in the order of their numbers and both counts 0; every channel named has joined with its listen timer
running, its detectors starting from nothing with the first whole window to come (R1, R6), and its tune message placed, and
every other channel is unchanged. With a channel that is a member it is refused with BUSY, without a sheet with NO_SHEET,
nothing but a reclaim having come to pass, and with arguments that are no start's with BAD_ARG. Which arguments are a start's,
and what they stand for (R129, R130; number forms by log entry 23). On an IDLE channel whose end notice is still in flight a
start that has a sheet is taken as behind the taking of that notice, the model's reading (log entry 37). -/
def Obligations.RecvNowStartsAReception : Prop :=
  (∀ (args : List Text) (sp : StartSpec), startSpec? args = some sp ↔ StartReads args sp) ∧
  ∀ (s : State) (l : LineId) (h : InHand) (args : List Text), s.takes l .recvNow args h → 6 ≤ args.length →
    args.length ≤ 12 →
    (startSpec? args = none → exec (.recvNow l args) s = .next ((s.ready l h).answer l (.error .badArg) h.advance)) ∧
    ∀ sp, startSpec? args = some sp →
      ((∃ ch ∈ sp.chans, (s.chan ch).member.isSome) →
        exec (.recvNow l args) s = .next ((s.ready l h).answer l (.error .busy) h.advance)) ∧
      ((∀ ch ∈ sp.chans, (s.chan ch).member = none) →
        let bound := (s.ready l h).bindSheet sp.name sp.chart sp.width sp.lpm sp.height sp.window
        (bound.2 = none → exec (.recvNow l args) s = .next (bound.1.answer l (.error .noSheet) h.advance)) ∧
        (∀ i before ch after t, bound.2 = some i → sp.chans = before ++ ch :: after →
          (∀ c ∈ before, (s.chan c).endNotices = []) → (s.chan ch).endNotices ≠ [] → exec (.endNotice ch) s = .next t →
          exec (.recvNow l args) s = exec (.recvNow l args) t) ∧
        ∀ i sh, bound.2 = some i → bound.1.sheet i = some sh → (∀ ch ∈ sp.chans, (s.chan ch).endNotices = []) →
          ∃ t : State, exec (.recvNow l args) s = .next (t.answer l .ok h.advance) ∧
            t = { bound.1 with chans := t.chans, recs := t.recs, lastNumber := s.chooseNumber s.chooseRecord } ∧
            t.recs = bound.1.recs.set s.chooseRecord (some
              { number := s.chooseNumber s.chooseRecord, isOpen := true, origin := .manual l, name := sh.name,
                binding := some i, chart := sp.chart, width := sp.width, lpm := sp.lpm, drift := sp.drift,
                margin := sp.margin, qmin := sp.qmin, listen := sp.listen, window := sp.window, duration := none,
                timer := none, timing := .untimed,
                members := (Chan.all.filter fun ch => ch ∈ sp.chans).map fun ch =>
                  ⟨ch, .listening, sp.freqOf ch, none, none, none⟩,
                startSecond := s.runSeconds, endSecond := none, stored := 0, notStored := 0 }) ∧
            ∀ ch, (ch ∉ sp.chans → t.chan ch = s.chan ch) ∧
              (ch ∈ sp.chans → ∃ m, t.chan ch = { s.chan ch with
                  member := some m
                  tune := match sp.freqOf ch with
                    | some f => (s.chan ch).tune.place (tuneMessage f)
                    | none => (s.chan ch).tune } ∧
                m.reception = s.chooseNumber s.chooseRecord ∧ m.lpm = sp.lpm ∧ m.width = sp.width ∧
                m.height = sh.height ∧ m.phase = .listening ∧ m.run = [] ∧ m.lost = 0 ∧ m.timing = none ∧ m.kept = [] ∧
                m.markers = [] ∧ m.toneEnds = [] ∧ m.det.opening = 0 ∧ m.det.closing = 0 ∧ m.det.last = none ∧
                m.det.lastClear = none ∧ m.det.whiteFrom = none ∧ m.det.changes = 0 ∧ m.det.windowSum = 0 ∧
                (m.det.firstWindow % 960 = 0 ∧ s.clock / 256 ≤ m.det.firstWindow ∧
                  m.det.firstWindow < s.clock / 256 + 960) ∧
                m.listen = some (s.clock / 256 + sp.listen * 60 * 9600)))

/-! ### The line pool, the assembler and the merge -/

/-- R58 to R62, R71: the record offer in front is appended to a pool of fewer than 32 records, and otherwise dropped with a
notice that counts it as not stored. The waiting assembler takes the oldest record: with its reception's binding it holds
the merge request, with the binding removed the record is counted as not stored, and with no record of that number it is
discarded uncounted. The two notices of R71 add one to the reception's count, which stops at 4,294,967,295; one that names a
reception without a record is taken without effect. -/
def Obligations.OffersTakesAndCounts : Prop :=
  (∀ (ch : Chan) (s : State) (r : LineRecord) (rest : List LineRecord), s.powered = true →
    (s.chan ch).offers = r :: rest →
    let took := s.updChan ch fun c => { c with offers := rest }
    (s.pool.length < 32 → exec (.lineRecordOffer ch) s = .next { took with pool := s.pool ++ [r] }) ∧
    (32 ≤ s.pool.length →
      exec (.lineRecordOffer ch) s = .next { took with notStoredNotices := s.notStoredNotices ++ [r.reception] })) ∧
  (∀ (s : State) (r : LineRecord) (rest : List LineRecord), s.powered = true → s.hand = none → s.pool = r :: rest →
    (s.findRec r.reception = none → exec .assemblerTake s = .next { s with pool := rest }) ∧
    ∀ k rec, s.findRec r.reception = some k → s.reception k = some rec →
      (rec.binding = none → exec .assemblerTake s =
        .next { s with pool := rest, notStoredNotices := s.notStoredNotices ++ [r.reception] }) ∧
      ∀ i, rec.binding = some i → exec .assemblerTake s =
        .next { s with pool := rest, hand := some ⟨r, i, rec.qmin, rec.margin⟩ }) ∧
  (∀ (n : Nat) (s : State), s.powered = true → s.findRec n = none →
    (n ∈ s.storedNotices → exec (.linesStoredNotice n) s = .next { s with storedNotices := s.storedNotices.erase n }) ∧
    (n ∈ s.notStoredNotices →
      exec (.linesNotStoredNotice n) s = .next { s with notStoredNotices := s.notStoredNotices.erase n })) ∧
  ∀ (n k : Nat) (s : State), s.powered = true → s.findRec n = some k →
    (n ∈ s.storedNotices → exec (.linesStoredNotice n) s = .next
      { s.updRec k fun r => { r with stored := if r.stored < 4294967295 then r.stored + 1 else 4294967295 } with
        storedNotices := s.storedNotices.erase n }) ∧
    (n ∈ s.notStoredNotices → exec (.linesNotStoredNotice n) s = .next
      { s.updRec k fun r => { r with notStored := if r.notStored < 4294967295 then r.notStored + 1 else 4294967295 } with
        notStoredNotices := s.notStoredNotices.erase n })

/-- R53, R63 to R65, R67 to R70, R85: a merge request whose binding stands, on a FILLING sheet of its width whose row is
inside it and whose band is there, or can be taken from the free set (the lowest band). Each span of quality at least
q_min, where the row holds EMPTY or a span whose quality plus M it reaches, is written with the record's quality, channel
and pass, and its elements are the record's; every other span, every other row, and every byte of memory outside the
written spans' places read as before. The row's sequence and the sheet's grow to one value, which stops at 4,294,967,295,
the filled-row count grows when the row was empty, and the reception is told. With no span to store nothing changes but
the hand. Where in the band an element lies is the model's layout (log entry 25). -/
def Obligations.MergeWritesTheBetterSpans : Prop :=
  ∀ (s : State) (q : MergeRequest) (sh : Sheet), s.powered = true → s.hand = some q →
    (∃ k rec, s.findRec q.record.reception = some k ∧ s.reception k = some rec ∧ rec.binding = some q.entry) →
    s.sheet q.entry = some sh → sh.wf → sh.state = .filling → q.record.row < sh.height → q.record.width = sh.width →
    q.record.quals.length = 8 → (sh.row q.record.row).spans.length = 8 → q.record.grays.length = sh.width →
    (sh.width = 1024 ∨ sh.width = 1536 ∨ sh.width = 2048) →
    let seq := if sh.seq < 4294967295 then sh.seq + 1 else 4294967295
    let old := sh.row q.record.row
    let store (k : Nat) : Prop := ∃ g, q.record.quals[k]? = some g ∧ q.qmin ≤ g ∧
      ∀ sp, old.spans[k]? = some (some sp) → sp.quality + q.margin ≤ g
    ((∀ k, k < 8 → ¬store k) → exec .mergeRequest s = .next { s with hand := none }) ∧
    ∀ b, ((∃ k, k < 8 ∧ store k) ∧ (sh.bandOf q.record.row = some b ∨
        sh.bandOf q.record.row = none ∧ s.freeBands.head? = some b)) →
      ∃ t new, exec .mergeRequest s = .next t ∧ t.sheet q.entry = some new ∧
        t = { s with
          hand := none, dir := t.dir, mem := t.mem, storedNotices := s.storedNotices ++ [q.record.reception],
          freeBands := if sh.bandOf q.record.row = none then s.freeBands.tail else s.freeBands } ∧
        (∀ i, i ≠ q.entry → t.sheet i = s.sheet i) ∧
        new = { sh with
          seq := seq, rows := new.rows, bandMap := sh.bandMap.set (q.record.row / 32) (some b)
          filledRows := if ∀ sp ∈ old.spans, sp = none then sh.filledRows + 1 else sh.filledRows } ∧
        (new.row q.record.row).seq = seq ∧ (∀ n, n ≠ q.record.row → new.row n = sh.row n) ∧
        (∀ k, k < 8 →
          (store k → ∃ g, q.record.quals[k]? = some g ∧
            (new.row q.record.row).spans[k]? = some (some ⟨g, q.record.chan, q.record.reception⟩)) ∧
          (¬store k → (new.row q.record.row).spans[k]? = old.spans[k]?)) ∧
        (∀ k j, k < 8 → store k → j < sh.width / 16 →
          t.mem.read (b * 32768 + q.record.row % 32 * 1024 + (k * (sh.width / 16) + j)) =
            BitVec.ofNat 8 ((q.record.grays[k * (sh.width / 8) + 2 * j]?.getD 0) % 16 * 16 +
              (q.record.grays[k * (sh.width / 8) + 2 * j + 1]?.getD 0) % 16)) ∧
        ∀ a, (∀ k j, k < 8 → store k → j < sh.width / 16 →
            a ≠ b * 32768 + q.record.row % 32 * 1024 + (k * (sh.width / 16) + j)) →
          t.mem.read a = s.mem.read a

/-- R59, R62, R63, R66, R74, R75, R77, R86, R88: a merge request whose binding was removed, or whose sheet is gone, is not
FILLING, or does not fit the record, is discarded and counted as not stored, and no sheet is changed. One whose reception's
record has been taken for another reception is discarded uncounted; that this is judged again at the merge is log entry 30's.
One that has a span to store, needs a band and finds none free makes one reclaim: with a victim, the victim is freed and the
request is taken as after the freeing, with the lowest of the victim's bands in front of the free set; without one it is
discarded and counted, and FULL is raised on lines A, B and C. -/
def Obligations.MergeDiscardsAndFails : Prop :=
  ∀ (s : State) (q : MergeRequest), s.powered = true → s.hand = some q →
    let discarded : State := { s with hand := none, notStoredNotices := s.notStoredNotices ++ [q.record.reception] }
    (s.findRec q.record.reception = none → exec .mergeRequest s = .next { s with hand := none }) ∧
    ∀ k rec, s.findRec q.record.reception = some k → s.reception k = some rec →
      (rec.binding = none → exec .mergeRequest s = .next discarded) ∧
      (∀ i, rec.binding = some i → i ≠ q.entry → exec .mergeRequest s = .next { s with hand := none }) ∧
      (rec.binding = some q.entry → s.sheet q.entry = none → exec .mergeRequest s = .next discarded) ∧
      ∀ sh, rec.binding = some q.entry → s.sheet q.entry = some sh →
        ((sh.state ≠ .filling ∨ sh.height ≤ q.record.row ∨ q.record.width ≠ sh.width) →
          exec .mergeRequest s = .next discarded) ∧
        (sh.state = .filling → q.record.row < sh.height → q.record.width = sh.width →
          (∃ j g sp, j < 8 ∧ q.record.quals[j]? = some g ∧ (sh.row q.record.row).spans[j]? = some sp ∧ q.qmin ≤ g ∧
            ∀ x, sp = some x → x.quality + q.margin ≤ g) →
          sh.bandOf q.record.row = none → s.freeBands = [] →
          ((∀ i x, s.sheet i = some x → i ≠ q.entry → x.state = .complete → x.kept = false → 0 < x.readers) →
            exec .mergeRequest s = .next (discarded.mapLines fun x => { x with flags := { x.flags with full := true } })) ∧
          ∀ v x, s.victim (some q.entry) = some v → s.sheet v = some x → x.wf →
            exec .mergeRequest s = exec .mergeRequest (s.freeSheet v) ∧
            ∃ b, b ∈ x.bands ∧ (∀ c ∈ x.bands, b ≤ c) ∧ (s.freeSheet v).freeBands.head? = some b)

/-! ### The sheet store -/

/-- R84: freeing a sheet returns its entry to FREE and all its bands to the free set with no trace of it in them, removes the
binding from every ENDED record that names the entry, clears the pointer if it names the entry, and sends FREED with the
sheet's name and chart to lines A, B and C. R81, R83, R92, R126: an unbind that leaves a writer changes the count alone; the
last one makes the sheet COMPLETE with completed-at now and DONE when it has a filled row, and otherwise DEFINED, FREE or
RETIRING by its origin and readers. What a byte of a freed band reads as is the model's choice (log entry 25). -/
def Obligations.UnbindLeavesFilling : Prop :=
  (∀ (s : State) (i : Nat) (sh : Sheet), s.sheet i = some sh →
    s.freeSheet i = { s with
      dir := s.dir.set i none, freeBands := (s.freeSheet i).freeBands, mem := (s.freeSheet i).mem,
      latest := if s.latest = some i then none else s.latest,
      recs := s.recs.map fun e => e.map fun r =>
        if r.isOpen = false ∧ r.binding = some i then { r with binding := none } else r,
      lines := s.lines.mapAll fun x => { x with notices := x.notices ++ [⟨.freed, sh.name, sh.chart⟩] } } ∧
    (s.freeSheet i).freeBands.Perm (sh.bands ++ s.freeBands) ∧
    (s.freeBands.Pairwise (· ≤ ·) → (s.freeSheet i).freeBands.Pairwise (· ≤ ·)) ∧
    ∀ a, (s.freeSheet i).mem.read a = if a / 32768 ∈ sh.bands then 0xFF#8 else s.mem.read a) ∧
  ∀ (s : State) (i : Nat) (sh : Sheet), s.powered = true → i ∈ s.unbinds → s.sheet i = some sh → 0 < sh.writers →
    let took : State := { s with unbinds := s.unbinds.erase i }
    (1 < sh.writers →
      exec (.unbind i) s = .next (took.updSheet i fun x => { x with writers := sh.writers - 1 })) ∧
    (sh.writers = 1 → 0 < sh.filledRows →
      exec (.unbind i) s = .next ((took.updSheet i fun x => { x with
        writers := 0, state := .complete, completedAt := some s.runSeconds }).mapLines fun x => { x with
          notices := x.notices ++ [⟨.done, sh.name, sh.chart⟩] })) ∧
    (sh.writers = 1 → sh.filledRows = 0 → sh.origin = .defined →
      exec (.unbind i) s = .next (took.updSheet i fun x => { x with writers := 0, state := .defined })) ∧
    (sh.writers = 1 → sh.filledRows = 0 → sh.origin = .received → 0 < sh.readers →
      exec (.unbind i) s = .next (took.updSheet i fun x => { x with writers := 0, state := .retiring })) ∧
    (sh.writers = 1 → sh.filledRows = 0 → sh.origin = .received → sh.readers = 0 →
      exec (.unbind i) s = .next (took.freeSheet i))

/-- R87, R90: the victim of a reclaim is the COMPLETE, unkept, unread sheet other than the one being written with the smallest
completed-at, and a bind request is given the candidate with the greatest opened-at, the lower index deciding between equals;
there is none exactly when no sheet meets the conditions. -/
def Obligations.VictimAndCandidate : Prop :=
  (∀ (s : State) (writing : Option Nat),
    (∀ i sh, s.sheet i = some sh → sh.state = .complete → sh.completedAt.isSome) →
    let fit (i : Nat) (e : Nat) : Prop := ∃ sh, s.sheet i = some sh ∧ sh.state = .complete ∧ sh.kept = false ∧
      sh.readers = 0 ∧ writing ≠ some i ∧ sh.completedAt = some e
    (s.victim writing = none ↔ ∀ i e, ¬fit i e) ∧
    ∀ v, s.victim writing = some v → ∃ e, fit v e ∧ ∀ i f, fit i f → e < f ∨ e = f ∧ v ≤ i) ∧
  ∀ (s : State) (chart width lpm window : Nat),
    let found := findCandidate chart width lpm window s.runSeconds 0 s.dir
    let fit (i : Nat) (e : Nat) : Prop := ∃ sh, s.sheet i = some sh ∧ sh.chart = chart ∧ sh.width = width ∧
      sh.lpm = lpm ∧ sh.openedAt = e ∧ (sh.state = .defined ∨
        (sh.state = .filling ∨ sh.state = .complete) ∧ 0 < window ∧ s.runSeconds ≤ e + window * 3600)
    (found = none ↔ ∀ i e, ¬fit i e) ∧
    ∀ v e, found = some (v, e) → fit v e ∧ ∀ i f, fit i f → f < e ∨ f = e ∧ v ≤ i

/-- R82, R88, R89, R91, R98: a bind request with a candidate that is FILLING adds a writer alone; one that is DEFINED or
COMPLETE enters FILLING with OPENED and the pointer, its opened-at set from DEFINED and kept from COMPLETE. With no
candidate and a FREE entry the sheet is made in the lowest one, RECEIVED, with the requested name or, where a sheet holds
it, the first of its first ten characters followed by -2 to -9 that no sheet holds; with none of those free the request
fails. With no FREE entry one reclaim is made: with a victim the request is taken as after the victim's freeing, and
without one it fails. -/
def Obligations.BindRequestBindsOrCreates : Prop :=
  ∀ (s : State) (name : Text) (chart width lpm height window : Nat),
    let bound := s.bindSheet name chart width lpm height window
    let found := findCandidate chart width lpm window s.runSeconds 0 s.dir
    (∀ i e sh, found = some (i, e) → s.sheet i = some sh →
      bound.2 = some i ∧
      (sh.state = .filling → bound.1 = s.updSheet i fun x => { x with writers := x.writers + 1 }) ∧
      (sh.state ≠ .filling →
        bound.1 = { s.updSheet i (fun x => { x with
            writers := x.writers + 1, state := .filling,
            openedAt := if sh.state = .defined then s.runSeconds else x.openedAt }) with
          latest := some i
          lines := s.lines.mapAll fun x => { x with notices := x.notices ++ [⟨.opened, sh.name, sh.chart⟩] } })) ∧
    (found = none → (∀ i, i < s.dir.length → (s.sheet i).isSome) →
      (s.victim none = none → bound = (s, none)) ∧
      ∀ v, s.victim none = some v → v < s.dir.length ∧ (s.freeSheet v).sheet v = none ∧
        bound = (s.freeSheet v).bindSheet name chart width lpm height window) ∧
    (found = none → ∀ i, i < s.dir.length → s.sheet i = none → (∀ j, j < i → (s.sheet j).isSome) →
      let tries : List Text := name :: (["2", "3", "4", "5", "6", "7", "8", "9"].map fun k =>
        name.take 10 ++ ascii "-" ++ ascii k)
      let free (n : Text) : Prop := ∀ j sh, s.sheet j = some sh → sh.name ≠ n
      ((∀ n ∈ tries, ¬free n) → bound = (s, none)) ∧
      ∀ before n after, tries = before ++ n :: after → (∀ x ∈ before, ¬free x) → free n →
        bound.2 = some i ∧
        bound.1 = { s with
          dir := s.dir.set i (some
            { name := n, chart := chart, width := width, lpm := lpm, height := height, state := .filling,
              origin := .received, kept := false, seq := 0, openedAt := s.runSeconds, completedAt := none,
              writers := 1, readers := 0, filledRows := 0,
              bandMap := List.replicate ((height - 1) / 32 + 1) none,
              rows := List.replicate height ⟨0, List.replicate 8 none⟩ })
          latest := some i
          lines := s.lines.mapAll fun x => { x with notices := x.notices ++ [⟨.opened, n, chart⟩] } })

/-- R78 to R80, R102, R105, R109: SHEET.DEFINE puts a DEFINED sheet with the values of R78 into the lowest FREE entry, is
refused with NAME_EXISTS when a sheet holds the name and with DIR_FULL when no entry is FREE; SHEET.KEEP sets the kept flag
of the sheet its argument resolves to and nothing else, refuses a RETIRING one with RETIRING and a missing one with NO_SHEET;
SHEET.SELECT sets the selection of its own line. What the arguments stand for: a name of R79, a chart 0-4095, one of the
three widths and of the four rates, and "*" for the selection. R180: a name resolves to the sheet that holds it, the only one
where names are distinct; the selection to the sheet of its name, or on AUTO to the latest-opened one, or to none. -/
def Obligations.SheetDefineKeepSelect : Prop :=
  (∀ t n : Text, (validName t = true ↔ NameWf t) ∧ (name? t = some n ↔ t = n ∧ NameWf t) ∧
    (sheetRef? t = some .selection ↔ t = ascii "*") ∧ (sheetRef? t = some (.named n) ↔ t = n ∧ NameWf t)) ∧
  (∀ (t : Text) (n : Nat), (chart? t = some n ↔ number? t = some n ∧ n ≤ 4095) ∧
    (width? t = some n ↔ number? t = some n ∧ (n = 1024 ∨ n = 1536 ∨ n = 2048)) ∧
    (lpm? t = some n ↔ number? t = some n ∧ (n = 60 ∨ n = 90 ∨ n = 120 ∨ n = 180))) ∧
  (∀ (s : State) (l : LineId) (n : Text),
    (∀ i, s.resolve l (.named n) = some i ↔
      (∃ sh, s.sheet i = some sh ∧ sh.name = n) ∧ ∀ j sh, j < i → s.sheet j = some sh → sh.name ≠ n) ∧
    (s.sheetsWf → ∀ i, s.resolve l (.named n) = some i ↔ ∃ sh, s.sheet i = some sh ∧ sh.name = n) ∧
    ((s.line l).selection = .named n → s.resolve l .selection = s.resolve l (.named n)) ∧
    ((s.line l).selection = .auto → s.resolve l .selection = s.latest)) ∧
  (∀ (s : State) (l : LineId) (h : InHand) (a b c d e n : Text) (chart width lpm height : Nat),
    s.takes l .sheetDefine [a, b, c, d, e] h → name? a = some n → chart? b = some chart → width? c = some width →
    lpm? d = some lpm → ClampsTo 32 2048 1280 e height →
    let run := exec (.sheetDefine l [a, b, c, d, e]) s
    let free : Prop := ∀ j sh, s.sheet j = some sh → sh.name ≠ n
    (¬free → run = .next ((s.ready l h).answer l (.error .nameExists) h.advance)) ∧
    (free → (∀ i, i < s.dir.length → (s.sheet i).isSome) →
      run = .next ((s.ready l h).answer l (.error .dirFull) h.advance)) ∧
    ∀ i, free → i < s.dir.length → s.sheet i = none → (∀ j, j < i → (s.sheet j).isSome) →
      run = .next (({ s.ready l h with dir := s.dir.set i (some
        { name := n, chart := chart, width := width, lpm := lpm, height := height, state := .defined, origin := .defined,
          kept := false, seq := 0, openedAt := s.runSeconds, completedAt := none, writers := 0, readers := 0,
          filledRows := 0, bandMap := List.replicate ((height - 1) / 32 + 1) none,
          rows := List.replicate height ⟨0, List.replicate 8 none⟩ }) } : State).answer l .ok h.advance)) ∧
  (∀ (s : State) (l : LineId) (h : InHand) (a v : Text) (r : SheetRef) (on : Bool), s.takes l .sheetKeep [a, v] h →
    sheetRef? a = some r → (v = ascii "ON" ∧ on = true ∨ v = ascii "OFF" ∧ on = false) →
    (s.resolve l r = none →
      exec (.sheetKeep l [a, v]) s = .next ((s.ready l h).answer l (.error .noSheet) h.advance)) ∧
    ∀ i sh, s.resolve l r = some i → s.sheet i = some sh →
      exec (.sheetKeep l [a, v]) s = .next
        (if sh.state = .retiring then (s.ready l h).answer l (.error .retiring) h.advance
        else ((s.ready l h).updSheet i fun x => { x with kept := on }).answer l .ok h.advance)) ∧
  (∀ (s : State) (l : LineId) (h : InHand) (a : Text), s.takes l .sheetSelect [a] h →
    (a = ascii "AUTO" → exec (.sheetSelect l [a]) s =
      .next (((s.ready l h).updLine l fun x => { x with selection := .auto }).answer l .ok h.advance)) ∧
    (validName a = true → exec (.sheetSelect l [a]) s =
      .next (((s.ready l h).updLine l fun x => { x with selection := .named a }).answer l .ok h.advance)) ∧
    (a ≠ ascii "AUTO" → validName a = false →
      exec (.sheetSelect l [a]) s = .next ((s.ready l h).answer l (.error .badArg) h.advance)))

/-- R79, R94 to R96, R103: SHEET.DELETE of a DEFINED or COMPLETE sheet frees it, or makes it RETIRING while it is read; of a
RETIRING one it answers OK and changes nothing; of a FILLING one it is refused with SHEET_ACTIVE. With FORCE every OPEN
reception bound to a FILLING sheet ends first, its members ABORTED and their channels IDLE, within the command (log entry
15), the sheet leaves FILLING, and is then deleted: it is gone, or RETIRING while it is read; every other sheet, reception and
channel is unchanged. R104: SHEET.DELETE ALL without FORCE leaves no DEFINED or COMPLETE sheet without a reader and no FILLING
sheet changed; with FORCE every sheet is gone, or RETIRING while it is read, and every OPEN reception has ended with its
members ABORTED. The bands that become free are those of the sheets that go, and a byte outside them reads as before (what a
freed band's byte reads as is log entry 25's); the pointer is cleared when its sheet goes; OPEN records keep their bindings and
ENDED ones lose those to the entries freed; each line is sent FREED for every sheet that goes, in order of index, behind
DONE where a FILLING one had a filled row, and a line whose RECV.STOP waits for a reception that ends is answered OK. -/
def Obligations.SheetDelete : Prop :=
  let aborted (s : State) (rec : Reception) : Reception := { rec with
    isOpen := false, endSecond := some s.runSeconds, timer := none, members := rec.members.map s.abortedMember }
  let retired (s : State) (sh : Sheet) : Sheet := { sh with
    state := .retiring, writers := 0
    completedAt := if sh.state = .filling ∧ 0 < sh.filledRows then some s.runSeconds else sh.completedAt }
  let lineAfter (ends : Nat → Prop) (sent : List SheetNotice) (x y : Line) : Prop :=
    y = { x with notices := x.notices ++ sent, interp := y.interp, tx := y.tx } ∧
    (∀ n hand, x.interp = .stopping n hand → ends n →
      y.interp = (if hand.todo = [] then .ready else .executing hand) ∧ y.tx = x.tx.send (ascii "OK" ++ crlf)) ∧
    ((∀ n hand, x.interp = .stopping n hand → ¬ends n) → y.interp = x.interp ∧ y.tx = x.tx)
  let notices (done : Bool) (s t : State) : List SheetNotice := (List.range s.dir.length).flatMap fun i =>
    match s.sheet i with
    | none => []
    | some sh =>
      (if done = true ∧ sh.state = .filling ∧ 0 < sh.filledRows then [⟨.done, sh.name, sh.chart⟩] else []) ++
        if t.sheet i = none then [⟨.freed, sh.name, sh.chart⟩] else []
  let bandsFreed (s t : State) : Prop :=
    (∀ b, b ∈ t.freeBands ↔ b ∈ s.freeBands ∨ ∃ i sh, s.sheet i = some sh ∧ t.sheet i = none ∧ b ∈ sh.bands) ∧
    (∀ a i sh, s.sheet i = some sh → t.sheet i = none → a / 32768 ∈ sh.bands → t.mem.read a = 0xFF#8) ∧
    (∀ a, (∀ i sh, s.sheet i = some sh → t.sheet i = none → a / 32768 ∉ sh.bands) → t.mem.read a = s.mem.read a) ∧
    (s.latest = none → t.latest = none) ∧
    ∀ i, s.latest = some i → t.latest = if (s.sheet i).isSome ∧ t.sheet i = none then none else some i
  (∀ (s : State) (l : LineId) (h : InHand) (a : Text) (opt : List Text) (r : SheetRef) (force : Bool),
    s.takes l .sheetDelete (a :: opt) h → a ≠ ascii "ALL" → sheetRef? a = some r →
    (opt = [] ∧ force = false ∨ opt = [ascii "FORCE"] ∧ force = true) →
    let run := exec (.sheetDelete l (a :: opt)) s
    (s.resolve l r = none → run = .next ((s.ready l h).answer l (.error .noSheet) h.advance)) ∧
    ∀ i sh, s.resolve l r = some i → s.sheet i = some sh →
      ((sh.state = .defined ∨ sh.state = .complete) → run = .next
        ((if sh.readers = 0 then (s.ready l h).freeSheet i
        else (s.ready l h).updSheet i fun x => { x with state := .retiring }).answer l .ok h.advance)) ∧
      (sh.state = .retiring → run = .next ((s.ready l h).answer l .ok h.advance)) ∧
      (sh.state = .filling → force = false →
        run = .next ((s.ready l h).answer l (.error .sheetActive) h.advance)) ∧
      (sh.state = .filling → force = true → s.sheetsWf → s.numbersWf → s.membersWf → s.writersWf →
        let bound (rec : Reception) : Prop := rec.isOpen = true ∧ rec.binding = some i
        ∃ t : State, run = .next (t.answer l .ok h.advance) ∧
          t = { s with
            chans := t.chans, dir := t.dir, freeBands := if sh.readers = 0 then (s.freeSheet i).freeBands else s.freeBands,
            mem := if sh.readers = 0 then (s.freeSheet i).mem else s.mem,
            latest := if sh.readers = 0 ∧ s.latest = some i then none else s.latest,
            unbinds := s.unbinds.filter fun j => j ≠ i, recs := t.recs, lines := t.lines } ∧
          t.sheet i = (if sh.readers = 0 then none else some (retired s sh)) ∧
          (∀ j, j ≠ i → t.sheet j = s.sheet j) ∧
          (∀ k, (t.reception k).isSome = (s.reception k).isSome) ∧
          (∀ k rec q, s.reception k = some rec → t.reception k = some q →
            (bound rec → q = { aborted s rec with binding := if sh.readers = 0 then none else some i } ∧
              ∀ y ∈ q.members, y.cause.isSome) ∧
            (rec.isOpen = true → rec.binding ≠ some i → q = rec) ∧
            (rec.isOpen = false →
              q = if sh.readers = 0 ∧ rec.binding = some i then { rec with binding := none } else rec)) ∧
          (∀ ch, ((∃ k rec, s.reception k = some rec ∧ bound rec ∧ ∃ y ∈ rec.members, y.chan = ch ∧ y.cause = none) →
              t.chan ch = { s.chan ch with member := none, endNotices := [] }) ∧
            ((∀ k rec, s.reception k = some rec → bound rec → ∀ y ∈ rec.members, y.chan = ch → y.cause.isSome) →
              t.chan ch = s.chan ch)) ∧
          ∀ x, lineAfter (fun n => ∃ k rec, s.reception k = some rec ∧ bound rec ∧ rec.number = n)
            ((if 0 < sh.filledRows then [⟨.done, sh.name, sh.chart⟩] else []) ++
              if sh.readers = 0 then [⟨.freed, sh.name, sh.chart⟩] else []) ((s.ready l h).line x) (t.line x))) ∧
  (∀ (s : State) (l : LineId) (h : InHand), s.takes l .sheetDelete [ascii "ALL"] h →
    ∃ t : State, exec (.sheetDeleteAll l [ascii "ALL"]) s = .next (t.answer l .ok h.advance) ∧
      t = { s.ready l h with
        dir := t.dir, freeBands := t.freeBands, mem := t.mem, latest := t.latest, recs := t.recs, lines := t.lines } ∧
      (∀ i, t.sheet i = match s.sheet i with
        | none => none
        | some sh => if sh.state = .filling ∨ sh.state = .retiring then some sh
          else if sh.readers = 0 then none else some { sh with state := .retiring }) ∧
      bandsFreed s t ∧
      (∀ k, t.reception k = (s.reception k).map fun rec =>
        if rec.isOpen = false ∧ (rec.binding.any fun i => (s.sheet i).isSome && (t.sheet i).isNone) = true then
          { rec with binding := none }
        else rec) ∧
      ∀ x, t.line x = { (s.ready l h).line x with notices := ((s.ready l h).line x).notices ++ notices false s t }) ∧
  ∀ (s : State) (l : LineId) (h : InHand), s.takes l .sheetDelete [ascii "ALL", ascii "FORCE"] h →
    s.sheetsWf → s.numbersWf → s.membersWf → s.writersWf →
    ∃ t : State, exec (.sheetDeleteAll l [ascii "ALL", ascii "FORCE"]) s = .next (t.answer l .ok h.advance) ∧
      t = { s with
        chans := t.chans, dir := t.dir, freeBands := t.freeBands, mem := t.mem, latest := t.latest, unbinds := [],
        recs := t.recs, lines := t.lines } ∧
      (∀ i, t.sheet i = match s.sheet i with
        | none => none
        | some sh => if sh.state = .retiring then some sh else if sh.readers = 0 then none else some (retired s sh)) ∧
      (∀ k, (t.reception k).isSome = (s.reception k).isSome) ∧
      (∀ k rec q, s.reception k = some rec → t.reception k = some q →
        q = { if rec.isOpen then aborted s rec else rec with binding := q.binding } ∧
        (rec.isOpen = true → ∀ y ∈ q.members, y.cause.isSome) ∧
        (rec.binding = none → q.binding = none) ∧
        ∀ i, rec.binding = some i → (s.sheet i).isSome → q.binding = if (t.sheet i).isSome then some i else none) ∧
      (∀ ch, t.chan ch = { s.chan ch with member := none, endNotices := [] }) ∧
      bandsFreed s t ∧
      ∀ x, lineAfter (fun n => ∃ k rec, s.reception k = some rec ∧ rec.isOpen = true ∧ rec.number = n) (notices true s t)
        ((s.ready l h).line x) (t.line x)

/-! ### Time and the schedule -/

/-- R134 to R137, R155: RUN_SECOND adds one to the run seconds and moves a set time of day on by one second, from 23:59:59 to
00:00:00; the advance from ss 59 to 00 makes a minute event for the new minute while the schedule runs, and an UNSET time
stays UNSET. TIME.SET sets the time of day given, hh:mm:ss with one or two digits in each part and each part in its range
(number forms by log entry 23), and makes no event; SCHED.RUN sets the run setting (R153). -/
def Obligations.TimeOfDayAndRunSeconds : Prop :=
  (∀ (a : Text) (hh mm ss : Nat), timeOfDay? a = some ⟨hh, mm, ss⟩ ↔
    ∃ h m x, a = h ++ 0x3A#8 :: (m ++ 0x3A#8 :: x) ∧ TimePartReads 23 h hh ∧ TimePartReads 59 m mm ∧
      TimePartReads 59 x ss) ∧
  (∀ s : State, s.powered = true → s.tod = none → exec .runSecond s = .next { s with runSeconds := s.runSeconds + 1 }) ∧
  (∀ (s : State) (v : TimeOfDay), s.powered = true → s.tod = some v → v.hh < 24 → v.mm < 60 → v.ss < 60 →
    ∃ w, exec .runSecond s = .next { s with
        runSeconds := s.runSeconds + 1, tod := some w,
        minuteEvents := if v.ss = 59 ∧ s.schedRun = true then s.minuteEvents ++ [w.hh * 60 + w.mm] else s.minuteEvents } ∧
      w.hh < 24 ∧ w.mm < 60 ∧ w.ss < 60 ∧
      (w.hh * 60 + w.mm) * 60 + w.ss = ((v.hh * 60 + v.mm) * 60 + v.ss + 1) % 86400) ∧
  (∀ (s : State) (l : LineId) (h : InHand) (a : Text), s.takes l .timeSet [a] h →
    (∀ hh mm ss, timeOfDay? a = some ⟨hh, mm, ss⟩ → hh < 24 ∧ mm < 60 ∧ ss < 60 ∧
      exec (.timeSet l [a]) s = .next (({ s.ready l h with tod := some ⟨hh, mm, ss⟩ } : State).answer l .ok h.advance)) ∧
    (timeOfDay? a = none → exec (.timeSet l [a]) s = .next ((s.ready l h).answer l (.error .badArg) h.advance))) ∧
  ∀ (s : State) (l : LineId) (h : InHand) (a : Text), s.takes l .schedRun [a] h →
    (a = ascii "ON" →
      exec (.schedRun l [a]) s = .next (({ s.ready l h with schedRun := true } : State).answer l .ok h.advance)) ∧
    (a = ascii "OFF" →
      exec (.schedRun l [a]) s = .next (({ s.ready l h with schedRun := false } : State).answer l .ok h.advance)) ∧
    (a ≠ ascii "ON" → a ≠ ascii "OFF" →
      exec (.schedRun l [a]) s = .next ((s.ready l h).answer l (.error .badArg) h.advance))

/-- R115, R141 to R143: the minute event in front takes its due entries in table order, each on the state the one before it
left. With one due entry: with no channel of the entry IDLE the outcome is BUSY:
RFAIL is raised on lines A, B and C, a ONCE entry is disabled, and nothing else changes. With an IDLE channel the entry starts
a reception of SCHED origin with its duration on its IDLE channels alone, as `start` does for that request; the entry's last
outcome is the number issued, or NO_SHEET with RFAIL. With no due entry nothing happens but the taking. A minute event waits
while a device reset is under way (R136). -/
def Obligations.MinuteEventStartsDueEntries : Prop :=
  ∀ (s : State) (m : Nat) (rest : List Nat), s.powered = true → s.minuteEvents = m :: rest →
    let took : State := { s with minuteEvents := rest }
    (s.inReset = true → exec .minuteEvent s = .next s) ∧
    (s.inReset = false →
      ((∀ e ∈ s.sched, ¬(e.enabled = true ∧ e.start = m)) → exec .minuteEvent s = .next took) ∧
      (let record (st : State) (e : SchedEntry) (o : StartOutcome) : State := { st with sched := st.sched.map fun x =>
          if x.id = e.id then { x with outcome := some o, enabled := if x.rep = .once then false else x.enabled } else x }
        let failed (st : State) : State := st.mapLines fun x => { x with flags := { x.flags with rfail := true } }
        let one (st : State) (e : SchedEntry) : State :=
          let joiners := e.spec.chans.filter fun ch => (st.chan ch).member.isNone
          if joiners = [] then failed (record st e .busy)
          else
            match st.start e.spec (.sched e.id) (some e.duration) joiners with
            | (t, some n) => record t e (.started n)
            | (t, none) => failed (record t e .noSheet)
        exec .minuteEvent s = .next ((s.sched.filter fun x => x.enabled && x.start == m).foldl one took)) ∧
      ∀ e, s.sched.filter (fun x => x.enabled && x.start == m) = [e] →
        let record (st : State) (o : StartOutcome) : State := { st with sched := st.sched.map fun x =>
          if x.id = e.id then { x with outcome := some o, enabled := if x.rep = .once then false else x.enabled } else x }
        let failed (st : State) : State := st.mapLines fun x => { x with flags := { x.flags with rfail := true } }
        ((∀ ch ∈ e.spec.chans, (s.chan ch).member.isSome) →
          exec .minuteEvent s = .next (failed (record took .busy))) ∧
        ∀ joiners, joiners = e.spec.chans.filter (fun ch => (s.chan ch).member.isNone) → joiners ≠ [] →
          let r := took.start e.spec (.sched e.id) (some e.duration) joiners
          (r.2 = none → exec .minuteEvent s = .next (failed (record r.1 .noSheet))) ∧
          ∀ n, r.2 = some n →
            exec .minuteEvent s = .next (record r.1 (.started n)) ∧
            (s.numbersWf → ∃ k rec, r.1.findRec n = some k ∧ r.1.reception k = some rec ∧ rec.isOpen = true ∧
              rec.origin = .sched e.id ∧ rec.duration = some e.duration ∧ rec.startSecond = s.runSeconds ∧
              rec.timer = some (s.runSeconds + e.duration * 60) ∧
              rec.members.map Member.chan = Chan.all.filter fun ch => ch ∈ joiners))

/-- R138 to R140, R149 to R151: SCHED.ADD places an acceptable entry, enabled and with its last outcome absent, by start
minute and then id, and is refused in the order NAME_EXISTS, SCHED_FULL, OVERLAP; SCHED.DEL removes the entry of its id,
or all; SCHED.ON enables an entry that overlaps no enabled one and is refused with OVERLAP otherwise; SCHED.OFF disables
one. An id held by no entry is refused with NO_ENTRY. None changes another entry. Which arguments SCHED.ADD takes, and the
entry they stand for (R138, R149; number forms by log entry 23); its fields lie in their ranges. -/
def Obligations.ScheduleTableCommands : Prop :=
  (∀ (l : LineId) (args : List Text) (e : SchedEntry), (schedEntry? l args = some e ↔ EntryReads l args e) ∧
    (EntryReads l args e → e.wellFormed = true)) ∧
  (∀ (s : State) (l : LineId) (h : InHand) (args : List Text), s.takes l .schedAdd args h → 10 ≤ args.length →
    args.length ≤ 16 →
    let run := exec (.schedAdd l args) s
    (schedEntry? l args = none → run = .next ((s.ready l h).answer l (.error .badArg) h.advance)) ∧
    ∀ e, schedEntry? l args = some e → e.enabled = true ∧ e.outcome = none ∧ e.line = l ∧
      ((∃ x ∈ s.sched, x.id = e.id) → run = .next ((s.ready l h).answer l (.error .nameExists) h.advance)) ∧
      ((∀ x ∈ s.sched, x.id ≠ e.id) → 32 ≤ s.sched.length →
        run = .next ((s.ready l h).answer l (.error .schedFull) h.advance)) ∧
      (SchedTableWf s.sched → (∀ x ∈ s.sched, x.id ≠ e.id) → s.sched.length < 32 →
        ((∃ x ∈ s.sched, x.enabled = true ∧ e.collides x) →
          run = .next ((s.ready l h).answer l (.error .overlap) h.advance)) ∧
        ((∀ x ∈ s.sched, x.enabled = true → ¬e.collides x) →
          ∃ front back, s.sched = front ++ back ∧
            run = .next (({ s.ready l h with sched := front ++ e :: back } : State).answer l .ok h.advance) ∧
            (∀ x ∈ front, x.start < e.start ∨ x.start = e.start ∧ x.id < e.id) ∧
            ∀ x ∈ back, e.start < x.start ∨ e.start = x.start ∧ e.id < x.id))) ∧
  ∀ (s : State) (l : LineId) (h : InHand) (a : Text),
    (s.takes l .schedDel [a] h → a = ascii "ALL" → exec (.schedDel l [a]) s =
      .next (({ s.ready l h with sched := [] } : State).answer l .ok h.advance)) ∧
    ∀ id, number? a = some id → 1 ≤ id → id ≤ 99 →
      ((∀ x ∈ s.sched, x.id ≠ id) →
        (s.takes l .schedDel [a] h →
          exec (.schedDel l [a]) s = .next ((s.ready l h).answer l (.error .noEntry) h.advance)) ∧
        (s.takes l .schedOn [a] h →
          exec (.schedOn l [a]) s = .next ((s.ready l h).answer l (.error .noEntry) h.advance)) ∧
        (s.takes l .schedOff [a] h →
          exec (.schedOff l [a]) s = .next ((s.ready l h).answer l (.error .noEntry) h.advance))) ∧
      ∀ front e back, SchedTableWf s.sched → s.sched = front ++ e :: back → e.id = id →
        let put (x : SchedEntry) : State := { s.ready l h with sched := front ++ x :: back }
        (s.takes l .schedDel [a] h → exec (.schedDel l [a]) s =
          .next (({ s.ready l h with sched := front ++ back } : State).answer l .ok h.advance)) ∧
        (s.takes l .schedOff [a] h → exec (.schedOff l [a]) s =
          .next ((put { e with enabled := false }).answer l .ok h.advance)) ∧
        (s.takes l .schedOn [a] h → exec (.schedOn l [a]) s = .next
          (if e.enabled = false ∧ (s.sched.any fun x => x.enabled && e.overlaps x) then
            (s.ready l h).answer l (.error .overlap) h.advance
          else (put { e with enabled := true }).answer l .ok h.advance))

/-- R139: for entries whose start minutes and durations are in their ranges, the model's overlap test holds exactly when the
two occupy a minute of the day in common and share a channel; an entry occupies the minutes from its start to its start plus
its duration less one, each modulo 1440. -/
def Obligations.OverlapIsASharedMinuteAndChannel : Prop :=
  ∀ x y : SchedEntry, x.start < 1440 → y.start < 1440 → 1 ≤ x.duration → x.duration ≤ 180 → 1 ≤ y.duration →
    y.duration ≤ 180 →
    (∀ m, m < 1440 → (x.occupies m = true ↔ ∃ j, j < x.duration ∧ m = (x.start + j) % 1440)) ∧
    (x.overlaps y = true ↔ x.collides y) ∧ (x.overlaps y = true ↔ y.overlaps x = true)

/-- R145 to R147, R154: SCHED.STORE with the writer IDLE takes the table, each entry without its last outcome, as the
snapshot and holds the line; with the writer WRITING it is refused with BUSY. At completion an agreeing read-back makes the
snapshot with its check value the image, which is valid, and the held line is answered OK and goes on; a disagreeing one
leaves the image invalid, answers STORE_FAIL, discards the rest of the command line and raises SCHED on lines A, B and C.
Within a device reset the completion waits. An image is valid exactly when its check value agrees with its entries and every
entry is well formed. Whether the read-back agrees is the event's operand, and the check value is a free function of the
entries (log entries 29 and 22). -/
def Obligations.ScheduleStore : Prop :=
  (∀ image : StoreImage, image.valid = true ↔
    image.check = Config.imageCheck image.entries ∧ ∀ e ∈ image.entries, e.wellFormed = true) ∧
  (∀ (s : State) (l : LineId) (h : InHand), s.takes l .schedStore [] h →
    exec (.schedStore l []) s = .next
      (if s.writer.isSome then (s.ready l h).answer l (.error .busy) h.advance
      else ({ s.ready l h with
        writer := some ⟨s.sched.map fun e => { e with outcome := none }, some l, none⟩ } : State).answer l .hold h.advance)) ∧
  ∀ (s : State) (w : StoreWrite) (agrees : Bool), s.powered = true → s.writer = some w →
    (s.inReset = true → w.completed = none →
      exec (.schedStoreComplete agrees) s = .next { s with writer := some { w with completed := some agrees } }) ∧
    (s.inReset = false → ∃ t, exec (.schedStoreComplete agrees) s = .next t ∧
      t = { s with writer := none, image := t.image, lines := t.lines } ∧
      (agrees = true → t.image.entries = w.snapshot ∧ t.image.check = Config.imageCheck w.snapshot ∧
        (SchedTableWf w.snapshot → t.image.valid = true)) ∧
      (agrees = false → t.image.valid = false) ∧
      ∀ l, (t.line l).flags = { (s.line l).flags with sched := (s.line l).flags.sched || !agrees } ∧
        t.line l = { s.line l with flags := (t.line l).flags, interp := (t.line l).interp, tx := (t.line l).tx } ∧
        ((w.line ≠ some l) → (t.line l).interp = (s.line l).interp ∧ (t.line l).tx = (s.line l).tx) ∧
        ∀ hand, w.line = some l → (s.line l).interp = .held hand →
          (agrees = true → (t.line l).interp = (if hand.todo = [] then .ready else .executing hand) ∧
            (t.line l).tx = (s.line l).tx.send (ascii "OK" ++ crlf)) ∧
          (agrees = false → (t.line l).interp = .ready ∧
            (t.line l).tx = (s.line l).tx.send (ascii "!STORE_FAIL " ++ dec hand.taken ++ crlf)))

/-! ### Command lines -/

/-- R157 to R159: a character on a line without a transfer. LF, 0x11, 0x13 and 0x18 are discarded, CR closes the command line
being received, any other byte is appended to it while the buffer holds fewer than 256 characters, and is otherwise dropped
with the command line marked overrun and LINE raised; on a marked command line it is dropped. A framing error raises LINE as
well. No other line and no other block is touched. R164: RETURN_TO_MARKING ends a break, before which nothing is received. -/
def Obligations.CharactersFillTheBuffer : Prop :=
  (∀ (s : State) (l : LineId) (b : Byte) (bad : Bool), s.awake → (s.line l).inBreak = false →
    (s.line l).transfer = none →
    let x := s.line l
    let run := exec (.characterReceived l b bad) s
    let now (y : Line) : Host.Outcome State Fault Refusal :=
      .next (s.updLine l fun _ => { y with flags := { y.flags with line := y.flags.line || bad } })
    ((b = 0x0A#8 ∨ b = 0x11#8 ∨ b = 0x13#8 ∨ b = 0x18#8) → run = now x) ∧
    (b = 0x0D#8 → run = now { x with complete := x.complete ++ [x.receiving], receiving := ⟨[], false⟩ }) ∧
    (b ≠ 0x0A#8 → b ≠ 0x11#8 → b ≠ 0x13#8 → b ≠ 0x18#8 → b ≠ 0x0D#8 →
      (x.receiving.overrun = true → run = now x) ∧
      (x.receiving.overrun = false → x.buffered < 256 →
        run = now { x with receiving := ⟨x.receiving.chars ++ [b], false⟩ }) ∧
      (x.receiving.overrun = false → 256 ≤ x.buffered → run = now { x with
        receiving := ⟨x.receiving.chars, true⟩, flags := { x.flags with line := true } }))) ∧
  (∀ (s : State) (l : LineId) (b : Byte) (bad : Bool), (s.line l).inBreak = true →
    exec (.characterReceived l b bad) s = .next s) ∧
  ∀ (s : State) (l : LineId), s.powered = true →
    exec (.returnToMarking l) s = .next (s.updLine l fun x => { x with inBreak := false })

/-- R101, R147, R164, R165, R203: a break on a line not already in one empties its buffer, discards the command line in
hand, stops the transmitter after the character it is sending, gives the line its reset values and ends its transfer
without a terminator; the sheet it read loses one reader, a RETIRING one read by it alone is freed, with LOST set on the
line in the same event and no other flag (what this makes of the notices in flight to the line is log entry 41's), and a
schedule store write of the line goes on without it. A break that is still held, or that falls in a device reset, does
nothing more. The record of what the line has sent is the model's own (log entry 7), and so is which character it is sending,
the first not yet sent (log entry 44). -/
def Obligations.BreakResetsItsLine : Prop :=
  ∀ (s : State) (l : LineId), s.powered = true →
    ((s.line l).inBreak = true → exec (.breakSeen l) s = .next s) ∧
    (s.inReset = true → exec (.breakSeen l) s = .next s) ∧
    (s.inReset = false → (s.line l).inBreak = false →
      let cleared : State := { s.updLine l fun x => { Line.initial with
          inBreak := true, notices := x.notices,
          tx := ⟨[], [], x.tx.wire ++ (x.tx.now ++ x.tx.waiting.flatten).take 1⟩ } with
        writer := s.writer.map fun w => if w.line = some l then { w with line := none } else w }
      let run := exec (.breakSeen l) s
      ((s.line l).transfer = none → run = .next cleared) ∧
      ∀ t sh, (s.line l).transfer = some t → s.sheet t.entry = some sh →
        (¬(sh.state = .retiring ∧ sh.readers ≤ 1) →
          run = .next (cleared.updSheet t.entry fun y => { y with readers := y.readers - 1 })) ∧
        (sh.state = .retiring → sh.readers ≤ 1 → run = .next ((cleared.freeSheet t.entry).updLine l fun x => { x with
          notices := [], flags := { FlagSet.empty with lost := true } })))

/-- R158, R160 to R163: a READY interpreter takes the oldest complete command line: an overrun one is answered !TOO_LONG 1
and one of nothing but spaces is not answered, the interpreter staying READY; any other is cut at ";" into its commands,
none of them taken yet. A malformed command is refused with SYNTAX, one whose keyword is not in the summary with UNKNOWN.
The answers: OK and values go behind what the transmitter has to send, and the interpreter goes on to the next command or
is READY after the last; a failure carries the command's position and discards the rest of the command line; a command
that takes time makes the interpreter HELD, and RECV.STOP of an OPEN reception makes it wait for that reception's end (log
entry 14). An interpreter is READY once its last answer stands in the transmitter, the model's choice (log entry 40).
UNKNOWN_COMMAND, like every row of a text command, carries the text it is taken with (log entry 2). Each failure is written
with its word of the table of error codes. -/
def Obligations.CommandLinesAreTakenAndAnswered : Prop :=
  let word : ErrorCode → Text
    | .syntaxError => ascii "SYNTAX"
    | .unknown => ascii "UNKNOWN"
    | .badArg => ascii "BAD_ARG"
    | .rowRange => ascii "ROW_RANGE"
    | .busy => ascii "BUSY"
    | .active => ascii "ACTIVE"
    | .noSheet => ascii "NO_SHEET"
    | .nameExists => ascii "NAME_EXISTS"
    | .dirFull => ascii "DIR_FULL"
    | .sheetActive => ascii "SHEET_ACTIVE"
    | .retiring => ascii "RETIRING"
    | .overlap => ascii "OVERLAP"
    | .schedFull => ascii "SCHED_FULL"
    | .noEntry => ascii "NO_ENTRY"
    | .storeFail => ascii "STORE_FAIL"
    | .tooLong => ascii "TOO_LONG"
  (∀ (s : State) (l : LineId) (c : CmdLine) (rest : List CmdLine), s.awake → (s.line l).interp = .ready →
    (s.line l).complete = c :: rest →
    let run := exec (.commandLineTake l) s
    (c.overrun = true → run = .next (s.updLine l fun x => { x with
      complete := rest, tx := x.tx.send (ascii "!TOO_LONG 1" ++ crlf) })) ∧
    (c.overrun = false → (∀ b ∈ c.chars, b = 0x20#8) → run = .next (s.updLine l fun x => { x with complete := rest })) ∧
    (c.overrun = false → (∃ b ∈ c.chars, b ≠ 0x20#8) → ∃ todo, todo ≠ [] ∧ (todo.intersperse (ascii ";")).flatten = c.chars ∧
      (∀ w ∈ todo, (0x3B#8 : Byte) ∉ w) ∧
      run = .next (s.updLine l fun x => { x with complete := rest, interp := .executing ⟨todo, 0⟩ }))) ∧
  (∀ (s : State) (l : LineId) (h : InHand) (text : Text), s.awake → (s.line l).interp = .executing h →
    h.todo.head? = some text →
    (parseCommand text = .malformed → exec (.unknownCommand l text) s =
      .next ((s.ready l h).answer l (.error .syntaxError) h.advance)) ∧
    (parseCommand text = .unknown → exec (.unknownCommand l text) s =
      .next ((s.ready l h).answer l (.error .unknown) h.advance))) ∧
  ∀ (s : State) (l : LineId) (h : InHand),
    let on : Interp := if h.todo = [] then .ready else .executing h
    s.answer l .ok h = s.updLine l (fun x => { x with tx := x.tx.send (ascii "OK" ++ crlf), interp := on }) ∧
    (∀ v, s.answer l (.values v) h =
      s.updLine l fun x => { x with tx := x.tx.send (ascii "=" ++ v ++ crlf), interp := on }) ∧
    (∀ e : ErrorCode, s.answer l (.error e) h = s.updLine l fun x => { x with
      tx := x.tx.send (ascii "!" ++ word e ++ ascii " " ++ dec h.taken ++ crlf), interp := .ready }) ∧
    s.answer l .hold h = s.updLine l (fun x => { x with interp := .held h }) ∧
    (∀ n, s.answer l (.stopping n) h = s.updLine l fun x => { x with interp := .stopping n h }) ∧
    s.answer l .okHold h = s.updLine l (fun x => { x with tx := x.tx.send (ascii "OK" ++ crlf), interp := .held h })

/-- R21, R102 to R105, R150, R151, R160, R173, R179, R205, R206 and the others: a text command with a number of arguments that
it does not take is refused with SYNTAX, and one with an argument that is not acceptable with BAD_ARG, the refusals the other
statements do not name among them; a refusal changes nothing but the output of its own line and its own interpreter. An
unknown filter mode is refused with BAD_ARG with no value or with two, and with SYNTAX with one, the model's choice (log entry
31). -/
def Obligations.RefusedArguments : Prop :=
  let counts : List (Keyword × (LineId → List Text → Instr) × Nat × Nat) :=
    [(.chanTones, .chanTones, 3, 3), (.chanSense, .chanSense, 2, 2), (.chanSquelch, .chanSquelch, 2, 2),
      (.chanLost, .chanLost, 2, 2), (.chanLock, .chanLock, 2, 2), (.chanState, .chanState, 1, 1),
      (.chanAbort, .chanAbort, 1, 1), (.sheetDefine, .sheetDefine, 5, 5), (.sheetKeep, .sheetKeep, 2, 2),
      (.sheetInfo, .sheetInfo, 1, 1), (.sheetSelect, .sheetSelect, 1, 1), (.recvNow, .recvNow, 6, 12),
      (.recvStop, .recvStop, 1, 1), (.recvStatus, .recvStatus, 1, 1), (.schedAdd, .schedAdd, 10, 16),
      (.schedDel, .schedDel, 1, 1), (.schedOn, .schedOn, 1, 1), (.schedOff, .schedOff, 1, 1),
      (.schedRun, .schedRun, 1, 1), (.schedStore, .schedStore, 0, 0), (.timeSet, .timeSet, 1, 1),
      (.eventTake, .eventTake, 0, 0), (.eventClear, .eventClear, 1, 1), (.eventSet, .eventSet, 1, 1),
      (.eventEnable, .eventEnable, 1, 1), (.eventDisable, .eventDisable, 1, 1), (.lineFilter, .lineFilter, 1, 3),
      (.lineNews, .lineNews, 0, 0), (.lineNewsDrop, .lineNewsDrop, 1, 1), (.lineAutotake, .lineAutotake, 1, 1),
      (.rowsSince, .rowsSince, 2, 3), (.rowsMap, .rowsMap, 3, 3)]
  let refused (i : Instr) (s : State) (l : LineId) (h : InHand) (e : ErrorCode) : Prop :=
    exec i s = .next ((s.ready l h).answer l (.error e) h.advance)
  (∀ row ∈ counts, ∀ (s : State) (l : LineId) (h : InHand) (args : List Text), s.takes l row.1 args h →
    (args.length < row.2.2.1 ∨ row.2.2.2 < args.length) → refused (row.2.1 l args) s l h .syntaxError) ∧
  (∀ (s : State) (l : LineId) (h : InHand) (args : List Text), s.takes l .sheetDelete args h →
    (args.length < 1 → refused (.sheetDelete l args) s l h .syntaxError) ∧
    (2 < args.length → args.head? ≠ some (ascii "ALL") → refused (.sheetDelete l args) s l h .syntaxError) ∧
    (2 < args.length → args.head? = some (ascii "ALL") → refused (.sheetDeleteAll l args) s l h .syntaxError)) ∧
  (∀ (s : State) (l : LineId) (h : InHand) (a b c d e : Text),
    (s.takes l .sheetDefine [a, b, c, d, e] h → (name? a = none ∨ chart? b = none ∨ width? c = none ∨ lpm? d = none ∨
      ¬∃ n, ClampsTo 32 2048 1280 e n) → refused (.sheetDefine l [a, b, c, d, e]) s l h .badArg) ∧
    (s.takes l .sheetKeep [a, b] h → (sheetRef? a = none ∨ b ≠ ascii "ON" ∧ b ≠ ascii "OFF") →
      refused (.sheetKeep l [a, b]) s l h .badArg) ∧
    (s.takes l .sheetDelete [a] h → a ≠ ascii "ALL" → sheetRef? a = none → refused (.sheetDelete l [a]) s l h .badArg) ∧
    (s.takes l .sheetDelete [a, b] h → a ≠ ascii "ALL" → (sheetRef? a = none ∨ b ≠ ascii "FORCE") →
      refused (.sheetDelete l [a, b]) s l h .badArg) ∧
    (s.takes l .sheetDelete [ascii "ALL", b] h → b ≠ ascii "FORCE" →
      refused (.sheetDeleteAll l [ascii "ALL", b]) s l h .badArg) ∧
    ((∀ n, 1 ≤ n → n ≤ 99 → number? a ≠ some n) →
      (s.takes l .schedDel [a] h → a ≠ ascii "ALL" → refused (.schedDel l [a]) s l h .badArg) ∧
      (s.takes l .schedOn [a] h → refused (.schedOn l [a]) s l h .badArg) ∧
      (s.takes l .schedOff [a] h → refused (.schedOff l [a]) s l h .badArg)) ∧
    (s.takes l .chanTones [a, b, c] h → (chan? a = none ∨ (¬∃ n, ClampsTo 300 3400 1500 b n) ∨
      ¬∃ n, ClampsTo 300 3400 2300 c n) → refused (.chanTones l [a, b, c]) s l h .badArg) ∧
    (a ≠ ascii "MASK" → a ≠ ascii "PAIR" → a ≠ ascii "RANGE" → a ≠ ascii "OFF" →
      (s.takes l .lineFilter [a] h → refused (.lineFilter l [a]) s l h .badArg) ∧
      (s.takes l .lineFilter [a, b] h → refused (.lineFilter l [a, b]) s l h .syntaxError) ∧
      (s.takes l .lineFilter [a, b, c] h → refused (.lineFilter l [a, b, c]) s l h .badArg)) ∧
    (a ≠ ascii "OFF" → s.takes l .lineFilter [a, b, c] h →
      ((∀ n, n ≤ 4095 → number? b ≠ some n) ∨ ∀ n, n ≤ 4095 → number? c ≠ some n) →
      refused (.lineFilter l [a, b, c]) s l h .badArg) ∧
    (s.takes l .lineFilter [ascii "OFF", b, c] h → refused (.lineFilter l [ascii "OFF", b, c]) s l h .syntaxError) ∧
    ((a = ascii "MASK" ∨ a = ascii "PAIR" ∨ a = ascii "RANGE") → s.takes l .lineFilter [a] h →
      refused (.lineFilter l [a]) s l h .syntaxError) ∧
    ((a = ascii "MASK" ∨ a = ascii "PAIR" ∨ a = ascii "RANGE" ∨ a = ascii "OFF") → s.takes l .lineFilter [a, b] h →
      refused (.lineFilter l [a, b]) s l h .syntaxError) ∧
    (s.takes l .lineNewsDrop [a] h → (¬∃ n, ClampsTo 0 8 8 a n) → refused (.lineNewsDrop l [a]) s l h .badArg) ∧
    (s.takes l .rowsSince [a, b] h → (sheetRef? a = none ∨ ∀ n, n ≤ 4294967295 → number? b ≠ some n) →
      refused (.rowsSince l [a, b]) s l h .badArg) ∧
    (s.takes l .rowsSince [a, b, c] h → (sheetRef? a = none ∨ (∀ n, n ≤ 4294967295 → number? b ≠ some n) ∨
      c ≠ [] ∧ number? c = none) → refused (.rowsSince l [a, b, c]) s l h .badArg) ∧
    (s.takes l .rowsMap [a, b, c] h → (sheetRef? a = none ∨ number? b = none ∨ ¬∃ n, ClampsTo 0 16 16 c n) →
      refused (.rowsMap l [a, b, c]) s l h .badArg))

/-- R97, R174 to R176: the sheet notice in front of a line. An OPENED or DONE one whose chart matches the filter and which
the list does not hold for that sheet and kind is appended behind at most seven others, the oldest of eight going, and
raises NEWS; any other leaves the line as it was. A FREED one removes every entry of its sheet whatever the filter, and
raises LOST when the filter matches. No other line is touched. Which chart identifiers a filter matches (R172): MASK
compares the bit positions in which b has a 0, PAIR the two values, RANGE the range, OFF none; MASK 0,4095 matches every
identifier and MASK a,0 matches a alone. -/
def Obligations.SheetNoticesMakeNews : Prop :=
  (∀ (s : State) (l : LineId) (n : SheetNotice) (rest : List SheetNotice), s.powered = true →
    (s.line l).notices = n :: rest →
    let x : Line := { s.line l with notices := rest }
    let now (y : Line) : Host.Outcome State Fault Refusal := .next (s.updLine l fun _ => y)
    (n.kind ≠ .freed →
      ((x.filter.matchesId n.chart = false ∨ ∃ e ∈ x.news, e.name = n.name ∧ e.kind = n.kind) →
        exec (.newsNotice l) s = now x) ∧
      (x.filter.matchesId n.chart = true → (∀ e ∈ x.news, ¬(e.name = n.name ∧ e.kind = n.kind)) →
        exec (.newsNotice l) s = now { x with
          news := (if x.news.length < 8 then x.news else x.news.tail) ++ [n], flags := { x.flags with news := true } })) ∧
    (n.kind = .freed →
      exec (.freedNotice l) s = now { x with
        news := x.news.filter fun e => e.name ≠ n.name
        flags := { x.flags with lost := x.flags.lost || x.filter.matchesId n.chart } })) ∧
  ∀ id : Nat, id < 4096 →
    (∀ a b, a < 4096 → b < 4096 →
      ((Filter.mask a b).matchesId id = true ↔ ∀ k, b.testBit k = false → id.testBit k = a.testBit k)) ∧
    (∀ a b, (Filter.pair a b).matchesId id = true ↔ id = a ∨ id = b) ∧
    (∀ a b, (Filter.range a b).matchesId id = true ↔ a ≤ id ∧ id ≤ b) ∧
    Filter.off.matchesId id = false ∧ (Filter.mask 0 4095).matchesId id = true ∧
    ((Filter.mask 300 15).matchesId id = true ↔ 288 ≤ id ∧ id ≤ 303) ∧
    ∀ a, a < 4096 → ((Filter.mask a 0).matchesId id = true ↔ id = a)

/-- R166 to R171: EVENT.TAKE? reports the flags both set and enabled and clears exactly those, so that the attention
output is released; EVENT.CLEAR, EVENT.SET, EVENT.ENABLE and EVENT.DISABLE change the flags or enables named and no
others, and an argument that is neither ALL nor flag names joined by "+" changes nothing and is refused with BAD_ARG; the attention
output is asserted exactly when some flag is both set and enabled. Only the line itself is touched. -/
def Obligations.EventFlagCommands : Prop :=
  (∀ (a : Text) (names : List Flag), flags? a = some names ↔ FlagsRead a names) ∧
  (∀ x : Line, x.attention = true ↔ ∃ f, x.flags.get f = true ∧ x.enables.get f = true) ∧
  (∀ (s : State) (l : LineId) (h : InHand), s.takes l .eventTake [] h → ∃ left : FlagSet,
    (∀ f, left.get f = ((s.line l).flags.get f && !(s.line l).enables.get f)) ∧
    ({ s.line l with flags := left } : Line).attention = false ∧
    exec (.eventTake l []) s = .next (((s.ready l h).updLine l fun x => { x with flags := left }).answer l
      (.values (flagsText ((s.line l).flags.both (s.line l).enables))) h.advance)) ∧
  ∀ (s : State) (l : LineId) (h : InHand) (a : Text),
    (flags? a = none →
      (s.takes l .eventClear [a] h →
        exec (.eventClear l [a]) s = .next ((s.ready l h).answer l (.error .badArg) h.advance)) ∧
      (s.takes l .eventSet [a] h →
        exec (.eventSet l [a]) s = .next ((s.ready l h).answer l (.error .badArg) h.advance)) ∧
      (s.takes l .eventEnable [a] h →
        exec (.eventEnable l [a]) s = .next ((s.ready l h).answer l (.error .badArg) h.advance)) ∧
      (s.takes l .eventDisable [a] h →
        exec (.eventDisable l [a]) s = .next ((s.ready l h).answer l (.error .badArg) h.advance))) ∧
    ∀ names, flags? a = some names → ∃ fsOff fsOn enOn enOff : FlagSet,
      (∀ f, fsOff.get f = if f ∈ names then false else (s.line l).flags.get f) ∧
      (∀ f, fsOn.get f = if f ∈ names then true else (s.line l).flags.get f) ∧
      (∀ f, enOn.get f = if f ∈ names then true else (s.line l).enables.get f) ∧
      (∀ f, enOff.get f = if f ∈ names then false else (s.line l).enables.get f) ∧
      (s.takes l .eventClear [a] h → exec (.eventClear l [a]) s =
        .next (((s.ready l h).updLine l fun x => { x with flags := fsOff }).answer l .ok h.advance)) ∧
      (s.takes l .eventSet [a] h → exec (.eventSet l [a]) s =
        .next (((s.ready l h).updLine l fun x => { x with flags := fsOn }).answer l .ok h.advance)) ∧
      (s.takes l .eventEnable [a] h → exec (.eventEnable l [a]) s =
        .next (((s.ready l h).updLine l fun x => { x with enables := enOn }).answer l .ok h.advance)) ∧
      (s.takes l .eventDisable [a] h → exec (.eventDisable l [a]) s =
        .next (((s.ready l h).updLine l fun x => { x with enables := enOff }).answer l .ok h.advance))

/-- R173, R177 to R179: LINE.FILTER replaces the filter of its own line, the values of RANGE exchanged when the first is the
greater; LINE.NEWS? reports the news list and empties it with auto-take ON; LINE.NEWS.DROP removes the oldest n entries, n
clamped to 0-8; LINE.AUTOTAKE sets auto-take. None changes a flag, and only the line itself is touched. -/
def Obligations.LineCommands : Prop :=
  (∀ (s : State) (l : LineId) (h : InHand) (mode a b : Text) (x y : Nat), s.takes l .lineFilter [mode, a, b] h →
    number? a = some x → number? b = some y →
    let run := exec (.lineFilter l [mode, a, b]) s
    let set (f : Filter) : Prop :=
      run = .next (((s.ready l h).updLine l fun z => { z with filter := f }).answer l .ok h.advance)
    (x ≤ 4095 → y ≤ 4095 → (mode = ascii "MASK" → set (.mask x y)) ∧ (mode = ascii "PAIR" → set (.pair x y)) ∧
      (mode = ascii "RANGE" → x ≤ y → set (.range x y)) ∧ (mode = ascii "RANGE" → y < x → set (.range y x))) ∧
    ((4095 < x ∨ 4095 < y) → mode ≠ ascii "OFF" →
      run = .next ((s.ready l h).answer l (.error .badArg) h.advance))) ∧
  (∀ (s : State) (l : LineId) (h : InHand), s.takes l .lineFilter [ascii "OFF"] h →
    exec (.lineFilter l [ascii "OFF"]) s =
      .next (((s.ready l h).updLine l fun z => { z with filter := .off }).answer l .ok h.advance)) ∧
  (∀ (s : State) (l : LineId) (h : InHand), s.takes l .lineNews [] h →
    exec (.lineNews l []) s = .next (((s.ready l h).updLine l fun z => { z with
        news := if z.autotake then [] else z.news }).answer l
      (.values ((s.line l).news.flatMap fun e =>
        ascii ";" ++ e.name ++ ascii "," ++ dec e.chart ++ ascii "," ++ match e.kind with
          | .opened => ascii "OPENED"
          | .done => ascii "DONE"
          | .freed => ascii "FREED")) h.advance)) ∧
  (∀ (s : State) (l : LineId) (h : InHand) (a : Text) (n : Nat), s.takes l .lineNewsDrop [a] h → ClampsTo 0 8 8 a n →
    exec (.lineNewsDrop l [a]) s =
      .next (((s.ready l h).updLine l fun z => { z with news := z.news.drop n }).answer l .ok h.advance)) ∧
  ∀ (s : State) (l : LineId) (h : InHand) (a : Text), s.takes l .lineAutotake [a] h →
    (a = ascii "ON" → exec (.lineAutotake l [a]) s =
      .next (((s.ready l h).updLine l fun z => { z with autotake := true }).answer l .ok h.advance)) ∧
    (a = ascii "OFF" → exec (.lineAutotake l [a]) s =
      .next (((s.ready l h).updLine l fun z => { z with autotake := false }).answer l .ok h.advance)) ∧
    (a ≠ ascii "ON" → a ≠ ascii "OFF" →
      exec (.lineAutotake l [a]) s = .next ((s.ready l h).answer l (.error .badArg) h.advance))

/-! ### Queries -/

/-- R108, R156, R168, R184: what SHEET.FREE?, TIME?, SYS.UPTIME?, EVENT.FLAGS? and SYS.ID? answer: the counts of free bands
and FREE entries; the time of day in two digits a part, or UNSET; the run seconds; the flags set and the flags enabled; the
part's identity with one firmware level from 1 to 999. Each takes no argument, is refused with SYNTAX when given one, and
changes nothing but the output of its own line and its own interpreter. -/
def Obligations.PlainQueries : Prop :=
  let answers (k : Keyword) (c : LineId → List Text → Instr) (v : State → LineId → Text) : Prop :=
    ∀ (s : State) (l : LineId) (h : InHand),
      (s.takes l k [] h → exec (c l []) s = .next ((s.ready l h).answer l (.values (v s l)) h.advance)) ∧
      ∀ a as, s.takes l k (a :: as) h →
        exec (c l (a :: as)) s = .next ((s.ready l h).answer l (.error .syntaxError) h.advance)
  let two (n : Nat) : Text := [BitVec.ofNat 8 (48 + n / 10), BitVec.ofNat 8 (48 + n % 10)]
  let list (fs : FlagSet) : Text :=
    match [(fs.news, ascii "NEWS"), (fs.lost, ascii "LOST"), (fs.full, ascii "FULL"), (fs.rfail, ascii "RFAIL"),
        (fs.xfer, ascii "XFER"), (fs.line, ascii "LINE"), (fs.time, ascii "TIME"), (fs.sched, ascii "SCHED"),
        (fs.reset, ascii "RESET")].filterMap fun p => if p.1 then some p.2 else none with
    | [] => ascii "-"
    | names => (names.intersperse (ascii "+")).flatten
  answers .sheetFree .sheetFree (fun s _ => dec s.freeBands.length ++ ascii "," ++
    dec ((List.range s.dir.length).countP fun i => (s.sheet i).isNone)) ∧
  answers .sysUptime .sysUptime (fun s _ => dec s.runSeconds) ∧
  answers .eventFlags .eventFlags (fun s l => list (s.line l).flags ++ ascii "," ++ list (s.line l).enables) ∧
  (∃ level, 1 ≤ level ∧ level ≤ 999 ∧
    answers .sysId .sysId (fun _ _ => ascii "RENNMUR,SOLFIDRA,C410," ++ dec level)) ∧
  (∀ (s : State) (l : LineId) (h : InHand), s.takes l .timeQuery [] h →
    (s.tod = none → exec (.timeQuery l []) s = .next ((s.ready l h).answer l (.values (ascii "UNSET")) h.advance)) ∧
    ∀ t, s.tod = some t → t.hh < 24 → t.mm < 60 → t.ss < 60 → exec (.timeQuery l []) s =
      .next ((s.ready l h).answer l (.values (two t.hh ++ ascii ":" ++ two t.mm ++ ascii ":" ++ two t.ss)) h.advance)) ∧
  ∀ (s : State) (l : LineId) (h : InHand) (a : Text) (as : List Text), s.takes l .timeQuery (a :: as) h →
    exec (.timeQuery l (a :: as)) s = .next ((s.ready l h).answer l (.error .syntaxError) h.advance)

/-- R106, R109, R133, R152: what SHEET.CATALOG?, SHEET.SELECT?, RECV.LIST? and SCHED.LIST? answer: one item, a semicolon
before each, for every sheet in order of directory index, every record in order of table index and every entry in table
order, behind the state of the schedule in the last; and the line's selection, or AUTO and the name of the latest-opened
sheet or "-", all in the words and forms of R211 and R212. An argument is refused with SYNTAX. Nothing else changes. That
SCHED.LIST? gives an entry's channels and
frequencies in the order in which they were written is the model's choice (log entry 28). -/
def Obligations.ListQueries : Prop :=
  AnswerForms ∧
  let answers (k : Keyword) (c : LineId → List Text → Instr) (v : State → LineId → Text) : Prop :=
    ∀ (s : State) (l : LineId) (h : InHand),
      (s.takes l k [] h → exec (c l []) s = .next ((s.ready l h).answer l (.values (v s l)) h.advance)) ∧
      ∀ a as, s.takes l k (a :: as) h →
        exec (c l (a :: as)) s = .next ((s.ready l h).answer l (.error .syntaxError) h.advance)
  answers .sheetCatalog .sheetCatalog (fun s _ => (List.range s.dir.length).flatMap fun i =>
    match s.sheet i with
    | none => []
    | some sh => ascii ";" ++ fields [dec i, sh.name, dec sh.chart, dec sh.width, dec sh.lpm, dec sh.height,
        sheetStateText sh.state, if sh.kept then ascii "ON" else ascii "OFF", dec sh.seq, dec sh.filledRows, dec sh.writers,
        dec sh.readers]) ∧
  answers .sheetSelectQuery .sheetSelectQuery (fun s l =>
    match (s.line l).selection with
    | .named n => n
    | .auto => ascii "AUTO," ++ (match s.latest with
      | none => ascii "-"
      | some i => match s.sheet i with
        | none => ascii "-"
        | some sh => sh.name)) ∧
  answers .recvList .recvList (fun s _ => (List.range s.recs.length).flatMap fun k =>
    match s.reception k with
    | none => []
    | some r => ascii ";" ++ fields [dec k, dec r.number, if r.isOpen then ascii "OPEN" else ascii "ENDED", originText r.origin,
        r.name, timingText r.timing, dec r.startSecond, orDash dec r.endSecond,
        plusList (r.members.map fun m => dec m.chan.num ++ ascii ":" ++ mirrorText m.mirror)]) ∧
  answers .schedList .schedList (fun s _ =>
    (if s.schedRun then ascii "ON," else ascii "OFF,") ++ (if s.writer.isSome then ascii "WRITING" else ascii "IDLE") ++
    s.sched.flatMap fun e => ascii ";" ++ fields [dec e.id, minuteText e.start, dec e.duration,
      (match e.rep with | .daily => ascii "DAILY" | .once => ascii "ONCE"),
      if e.enabled then ascii "ON" else ascii "OFF", plusList (e.spec.chans.map fun ch => dec ch.num),
      orDash (fun fs => plusList (fs.map freqText)) e.spec.freqs, dec e.spec.chart, e.spec.name, dec e.spec.width,
      dec e.spec.lpm, dec e.spec.height, driftText e.spec.drift, dec e.spec.margin, dec e.spec.qmin, dec e.spec.listen,
      dec e.spec.window, lineText e.line,
      (match e.outcome with
        | none => ascii "-"
        | some (.started n) => ascii "STARTED:" ++ dec n
        | some .busy => ascii "BUSY"
        | some .noSheet => ascii "NO_SHEET")])

/-- R23, R107, R132, R212: what CHAN.STATE?, SHEET.INFO? and RECV.STATUS? answer, field by field; a channel number other than
0-3, a bad sheet name and a number other than 0-255 are refused with BAD_ARG, a sheet argument that resolves to no sheet with
NO_SHEET and a number that no record holds with NO_ENTRY. Nothing else changes. The answers are in the words and forms that R211
and R212 give them. -/
def Obligations.RecordQueries : Prop :=
  AnswerForms ∧
  (∀ (s : State) (l : LineId) (h : InHand) (a : Text), s.takes l .chanState [a] h →
    ((∀ ch, number? a ≠ some (Chan.num ch)) →
      exec (.chanState l [a]) s = .next ((s.ready l h).answer l (.error .badArg) h.advance)) ∧
    ∀ ch, number? a = some (Chan.num ch) →
      let c := s.chan ch
      let own : List Text := match c.member with
        | none => [ascii "IDLE", ascii "-", ascii "-", ascii "-", ascii "0", ascii "-"]
        | some m =>
          (match m.phase with
            | .listening => [ascii "LISTENING", ascii "-", dec m.reception, ascii "-"]
            | .collecting => [ascii "PHASING", dec m.run.length, dec m.reception, ascii "-"]
            | .locked => [ascii "PHASING", ascii "LOCKED", dec m.reception, ascii "-"]
            | .imaging => [ascii "IMAGING", ascii "-", dec m.reception, dec m.row]) ++
          [dec m.lost, match m.listen with
            | none => ascii "-"
            | some e => dec ((e - s.clock / 256 + 9599) / 9600)]
      exec (.chanState l [a]) s = .next ((s.ready l h).answer l (.values (fields (own ++
        [dec c.cfg.black, dec c.cfg.white, if c.cfg.sense = .norm then ascii "NORM" else ascii "INV", dec c.cfg.squelch,
          dec c.cfg.lost, dec c.cfg.lock]))) h.advance)) ∧
  (∀ (s : State) (l : LineId) (h : InHand) (a : Text), s.takes l .sheetInfo [a] h →
    (sheetRef? a = none → exec (.sheetInfo l [a]) s = .next ((s.ready l h).answer l (.error .badArg) h.advance)) ∧
    ∀ r, sheetRef? a = some r →
      (s.resolve l r = none → exec (.sheetInfo l [a]) s = .next ((s.ready l h).answer l (.error .noSheet) h.advance)) ∧
      ∀ i sh, s.resolve l r = some i → s.sheet i = some sh →
        exec (.sheetInfo l [a]) s = .next ((s.ready l h).answer l (.values (fields [dec i, sh.name, dec sh.chart,
          dec sh.width, dec sh.lpm, dec sh.height, sheetStateText sh.state, sheetOriginText sh.origin,
          if sh.kept then ascii "ON" else ascii "OFF", dec sh.seq, dec sh.filledRows, dec sh.openedAt,
          orDash dec sh.completedAt, dec sh.writers, dec sh.readers, dec (sh.bandMap.countP Option.isSome)])) h.advance)) ∧
  ∀ (s : State) (l : LineId) (h : InHand) (a : Text), s.takes l .recvStatus [a] h →
    ((∀ n, n ≤ 255 → number? a ≠ some n) →
      exec (.recvStatus l [a]) s = .next ((s.ready l h).answer l (.error .badArg) h.advance)) ∧
    ∀ n, n ≤ 255 → number? a = some n →
      ((∀ k r, s.reception k = some r → r.number ≠ n) →
        exec (.recvStatus l [a]) s = .next ((s.ready l h).answer l (.error .noEntry) h.advance)) ∧
      ∀ k r, s.numbersWf → s.reception k = some r → r.number = n →
        let timing : List Text := match r.timing with
          | .untimed => [ascii "UNTIMED", ascii "-", ascii "-", ascii "-", ascii "-"]
          | .locked d peff ref => [ascii "LOCKED", signed d, dec peff, dec ref, ascii "-"]
          | .anchored d peff ref phase0 => [ascii "ANCHORED", signed d, dec peff, dec ref, dec phase0]
        exec (.recvStatus l [a]) s = .next ((s.ready l h).answer l (.values (fields ([dec n, dec k,
            if r.isOpen then ascii "OPEN" else ascii "ENDED", originText r.origin, r.name, orDash dec r.binding, dec r.chart,
            dec r.width, dec r.lpm, driftText r.drift, dec r.margin, dec r.qmin, dec r.listen, dec r.window,
            orDash dec r.duration] ++ timing ++
            [dec r.startSecond, orDash dec r.endSecond, dec r.stored, dec r.notStored]) ++
          r.members.flatMap fun m => ascii ";" ++ fields [dec m.chan.num, mirrorText m.mirror, orDash freqText m.freq,
            orDash dec m.firstRow, orDash causeText m.cause])) h.advance)

/-- R205, R206: ROWS.SINCE? answers with the sheet's seq and the first sixteen ranges of rows changed since a sequence, MORE
behind them if there are others; the ranges are the maximal runs of consecutive rows from `from` on whose sequence is greater.
ROWS.MAP? answers with the sequence and the eight spans of each row of its range, the count clamped to 0-16 and then to the
end of the sheet. A first row at or past the height is refused with ROW_RANGE. Neither changes anything else. -/
def Obligations.RowQueries : Prop :=
  (∀ (s : State) (l : LineId) (h : InHand) (nm sq : Text) (opt : List Text) (r : SheetRef) (i : Nat) (sh : Sheet)
      (seq start : Nat),
    s.takes l .rowsSince (nm :: sq :: opt) h → sheetRef? nm = some r → s.resolve l r = some i → s.sheet i = some sh →
    sh.rows.length = sh.height → number? sq = some seq → seq ≤ 4294967295 →
    ((opt = [] ∧ start = 0) ∨ (opt = [[]] ∧ start = 0) ∨ ∃ t, opt = [t] ∧ number? t = some start) →
    let run := exec (.rowsSince l (nm :: sq :: opt)) s
    (sh.height ≤ start → run = .next ((s.ready l h).answer l (.error .rowRange) h.advance)) ∧
    (start < sh.height → ∃ ranges : List (Nat × Nat),
      (∀ p ∈ ranges, start ≤ p.1 ∧ p.1 ≤ p.2 ∧ p.2 < sh.height) ∧
      ranges.Pairwise (fun p q => p.2 + 1 < q.1) ∧
      (∀ n, start ≤ n → n < sh.height → (seq < (sh.row n).seq ↔ ∃ p ∈ ranges, p.1 ≤ n ∧ n ≤ p.2)) ∧
      run = .next ((s.ready l h).answer l (.values (dec sh.seq ++
        ((ranges.take 16).flatMap fun p => ascii ";" ++ dec p.1 ++ ascii "-" ++ dec p.2) ++
        if ranges.length ≤ 16 then [] else ascii ";MORE")) h.advance))) ∧
  (∀ (s : State) (l : LineId) (h : InHand) (nm fr ct : Text) (r : SheetRef) (i : Nat) (sh : Sheet) (first count : Nat),
    s.takes l .rowsMap [nm, fr, ct] h → sheetRef? nm = some r → s.resolve l r = some i → s.sheet i = some sh →
    number? fr = some first → ClampsTo 0 16 16 ct count →
    let run := exec (.rowsMap l [nm, fr, ct]) s
    (sh.height ≤ first → run = .next ((s.ready l h).answer l (.error .rowRange) h.advance)) ∧
    (first < sh.height → run = .next ((s.ready l h).answer l (.values (
      (List.range (if first + count ≤ sh.height then count else sh.height - first)).flatMap fun k =>
        ascii ";" ++ dec (first + k) ++ ascii "," ++ dec (sh.row (first + k)).seq ++
        (sh.row (first + k)).spans.flatMap fun sp => ascii "," ++ (match sp with
          | none => ascii "-"
          | some x => dec x.quality ++ ascii ":" ++ dec x.chan.num ++ ascii ":" ++ dec x.pass))) h.advance))) ∧
  ∀ (s : State) (l : LineId) (h : InHand) (nm sq fr ct : Text) (r : SheetRef), sheetRef? nm = some r →
    s.resolve l r = none →
    (s.takes l .rowsSince [nm, sq] h → (∃ n, number? sq = some n ∧ n ≤ 4294967295) →
      exec (.rowsSince l [nm, sq]) s = .next ((s.ready l h).answer l (.error .noSheet) h.advance)) ∧
    (s.takes l .rowsMap [nm, fr, ct] h → (number? fr).isSome → (∃ n, ClampsTo 0 16 16 ct n) →
      exec (.rowsMap l [nm, fr, ct]) s = .next ((s.ready l h).answer l (.error .noSheet) h.advance))

/-! ### Row transfers -/

/-- R186 to R188: ROWS.READ. With three or four good arguments on a sheet that is not RETIRING and a first row inside it,
the sheet gains one reader, the line's engine takes the transfer with its count clamped to the rest of the sheet, the head
is sent (the opening line, then the header frame) and the interpreter is HELD. A bad argument, a name without a sheet, a
RETIRING sheet and a first row at or past the height are refused, in that order, and a wrong number of arguments with
SYNTAX; a refusal begins no transfer and adds no reader. -/
def Obligations.RowsReadBeginsATransfer : Prop :=
  (∀ (s : State) (l : LineId) (h : InHand) (args : List Text), s.takes l .rowsRead args h →
    (args.length < 3 ∨ 4 < args.length) →
    exec (.rowsRead l args) s = .next ((s.ready l h).answer l (.error .syntaxError) h.advance)) ∧
  (∀ (s : State) (l : LineId) (h : InHand) (nm fr ct word : Text), s.takes l .rowsRead [nm, fr, ct, word] h → word ≠ [] →
    word ≠ ascii "ALL" → word ≠ ascii "FILLED" →
    exec (.rowsRead l [nm, fr, ct, word]) s = .next ((s.ready l h).answer l (.error .badArg) h.advance)) ∧
  ∀ (s : State) (l : LineId) (h : InHand) (nm fr ct : Text) (opt : List Text) (form : RowForm),
    s.takes l .rowsRead (nm :: fr :: ct :: opt) h →
    ((opt = [] ∧ form = .all) ∨ (opt = [[]] ∧ form = .all) ∨ (opt = [ascii "ALL"] ∧ form = .all) ∨
      (opt = [ascii "FILLED"] ∧ form = .filled)) →
    let run := exec (.rowsRead l (nm :: fr :: ct :: opt)) s
    let refused (e : ErrorCode) : Prop := run = .next ((s.ready l h).answer l (.error e) h.advance)
    ((sheetRef? nm = none ∨ number? fr = none ∨ ∀ hi n, ¬ClampsTo 0 hi hi ct n) → refused .badArg) ∧
    ∀ r first, sheetRef? nm = some r → number? fr = some first → (∀ hi, ∃ n, ClampsTo 0 hi hi ct n) →
      (s.resolve l r = none → refused .noSheet) ∧
      ∀ i sh, s.resolve l r = some i → s.sheet i = some sh →
        (sh.state = .retiring → refused .retiring) ∧
        (sh.state ≠ .retiring → sh.height ≤ first → refused .rowRange) ∧
        ∀ count, sh.state ≠ .retiring → first < sh.height →
          ClampsTo 0 (sh.height - first) (sh.height - first) ct count →
          run = .next (((s.ready l h).updSheet i fun x => { x with readers := x.readers + 1 }).updLine l fun x =>
            { x with
              interp := .held h.advance
              transfer := some ⟨i, sh.name, form, first, count, first, .sending, false, none, 0, 0, false⟩
              tx := (x.tx.send (ascii "=ROWS " ++ sh.name ++ ascii "," ++ dec first ++ ascii "," ++ dec count ++
                crlf)).send (frame 0x48#8 (headerContent sh first count form)) })

/-- R190, R191, R193, R196, R198, R201, R202: the transfer engine. FRAME_BOUNDARY: a pending end decides its terminator with
the rows not yet examined, INTERRUPTED raising XFER; else a range at its end decides OK; else a pause request makes the engine
PAUSED; else the next row is examined and its frame sent, a FILLED read passing over the empty rows and deciding OK when the
range holds no filled one. STALL: a PAUSED engine whose pause has reached a limit (in character times, log entry 5) decides
STALLED and raises XFER. TRANSFER_END: the transfer is over, the sheet loses its reader, a RETIRING sheet without another one
is freed, and the interpreter goes on after OK and is READY otherwise. FRAME_BOUNDARY and TRANSFER_END find what was sent
before them gone out (log entry 6). -/
def Obligations.EngineAtBoundaries : Prop :=
  (∀ (s : State) (l : LineId) (t : Transfer) (sh : Sheet), s.powered = true → (s.line l).transfer = some t →
    t.phase = .sending → s.sheet t.entry = some sh →
    let run := exec (.frameBoundary l) s
    let x : Line := { s.line l with tx := (s.line l).tx.flush }
    let now (y : Line) : Host.Outcome State Fault Refusal := .next (s.updLine l fun _ => y)
    let ended (n : Nat) (ok : Bool) : Option Transfer :=
      some { t with next := n, phase := .ending, pauseRequest := false, pendingEnd := none, endsOk := ok }
    let sent (n : Nat) : Line :=
      { x with transfer := some { t with next := n + 1 }, tx := x.tx.send (frame 0x52#8 (s.rowContent sh n)) }
    let filled (n : Nat) : Prop := ∃ sp ∈ (sh.row n).spans, sp.isSome
    (t.pendingEnd = some .cancelled → run = now { x with
      transfer := ended t.next false
      tx := x.tx.send (ascii "!CANCELLED " ++ dec (t.first + t.count - t.next) ++ crlf) }) ∧
    (t.pendingEnd = some .interrupted → run = now { x with
      transfer := ended t.next false, flags := { x.flags with xfer := true }
      tx := x.tx.send (ascii "!INTERRUPTED " ++ dec (t.first + t.count - t.next) ++ crlf) }) ∧
    (t.pendingEnd = none → t.next = t.first + t.count → run = now { x with
      transfer := ended t.next true, tx := x.tx.send (ascii "OK" ++ crlf) }) ∧
    (t.pendingEnd = none → t.next < t.first + t.count → t.pauseRequest = true → run = now { x with
      transfer := some { t with phase := .paused, pauseRequest := false, single := 0 } }) ∧
    (t.pendingEnd = none → t.next < t.first + t.count → t.pauseRequest = false →
      (t.form = .all → run = now (sent t.next)) ∧
      (t.form = .filled →
        (∀ n, t.next ≤ n → n < t.first + t.count → (∀ m, t.next ≤ m → m < n → ¬filled m) → filled n →
          run = now (sent n)) ∧
        ((∀ m, t.next ≤ m → m < t.first + t.count → ¬filled m) → run = now { x with
          transfer := ended (t.first + t.count) true, tx := x.tx.send (ascii "OK" ++ crlf) })))) ∧
  (∀ (s : State) (l : LineId) (t : Transfer), s.powered = true → (s.line l).transfer = some t →
    (t.phase = .paused → (115200 ≤ t.single ∨ 691200 ≤ t.cumulative) →
      exec (.stall l) s = .next (s.updLine l fun x => { x with
        transfer := some { t with phase := .ending, pauseRequest := false, pendingEnd := none, endsOk := false }
        flags := { x.flags with xfer := true }
        tx := x.tx.send (ascii "!STALLED " ++ dec (t.first + t.count - t.next) ++ crlf) })) ∧
    ((t.phase ≠ .paused ∨ t.single < 115200 ∧ t.cumulative < 691200) → exec (.stall l) s = .next s)) ∧
  ∀ (s : State) (l : LineId) (t : Transfer) (sh : Sheet) (hand : InHand), s.powered = true →
    (s.line l).transfer = some t → t.phase = .ending → s.sheet t.entry = some sh → (s.line l).interp = .held hand →
    let ended : State := s.updLine l fun x => { x with
      transfer := none, tx := x.tx.flush
      interp := if t.endsOk = false ∨ hand.todo = [] then .ready else .executing hand }
    (¬(sh.state = .retiring ∧ sh.readers ≤ 1) → exec (.transferEnd l) s =
      .next (ended.updSheet t.entry fun y => { y with readers := y.readers - 1 })) ∧
    (sh.state = .retiring → sh.readers ≤ 1 → exec (.transferEnd l) s = .next (ended.freeSheet t.entry))

/-- R195, R197, R199, R200: a character on a line with a transfer in flight reaches the engine first. LF has no effect.
While SENDING with no end pending, 0x13 sets the pause request, 0x11 clears it, 0x18 makes CANCELLED pending, and any
other byte makes INTERRUPTED pending and is passed on to the input buffer; with an end pending, and in ENDING, the three
are discarded and any other byte is passed on. While PAUSED, 0x13 has no effect, 0x11 resumes with the next row, 0x18
decides CANCELLED at once, and any other byte decides INTERRUPTED at once, raises XFER and is passed on. -/
def Obligations.CharactersDuringATransfer : Prop :=
  ∀ (s : State) (l : LineId) (b : Byte) (bad : Bool) (t : Transfer) (sh : Sheet), s.awake → (s.line l).inBreak = false →
    (s.line l).transfer = some t → s.sheet t.entry = some sh →
    let x := s.line l
    let run := exec (.characterReceived l b bad) s
    let now (y : Line) : Host.Outcome State Fault Refusal :=
      .next (s.updLine l fun _ => { y with flags := { y.flags with line := y.flags.line || bad } })
    let r := t.first + t.count - t.next
    let ended (n : Nat) (ok : Bool) : Option Transfer :=
      some { t with next := n, phase := .ending, pauseRequest := false, pendingEnd := none, endsOk := ok }
    let sent (n : Nat) : Line := { x with
      transfer := some { t with next := n + 1, phase := .sending }, tx := x.tx.send (frame 0x52#8 (s.rowContent sh n)) }
    let filled (n : Nat) : Prop := ∃ sp ∈ (sh.row n).spans, sp.isSome
    (b = 0x0A#8 → run = now x) ∧
    ((t.phase = .ending ∨ t.phase = .sending ∧ t.pendingEnd.isSome) →
      ((b = 0x11#8 ∨ b = 0x13#8 ∨ b = 0x18#8) → run = now x) ∧
      (b ≠ 0x11#8 → b ≠ 0x13#8 → b ≠ 0x18#8 → run = now (x.bufferTakes b))) ∧
    (t.phase = .sending → t.pendingEnd = none →
      (b = 0x13#8 → run = now { x with transfer := some { t with pauseRequest := true } }) ∧
      (b = 0x11#8 → run = now { x with transfer := some { t with pauseRequest := false } }) ∧
      (b = 0x18#8 → run = now { x with transfer := some { t with pendingEnd := some .cancelled } }) ∧
      (b ≠ 0x0A#8 → b ≠ 0x11#8 → b ≠ 0x13#8 → b ≠ 0x18#8 →
        run = now (Line.bufferTakes b { x with transfer := some { t with pendingEnd := some .interrupted } }))) ∧
    (t.phase = .paused →
      (b = 0x13#8 → run = now x) ∧
      (b = 0x18#8 → run = now { x with
        transfer := ended t.next false, tx := x.tx.send (ascii "!CANCELLED " ++ dec r ++ crlf) }) ∧
      (b ≠ 0x0A#8 → b ≠ 0x11#8 → b ≠ 0x13#8 → b ≠ 0x18#8 → run = now (Line.bufferTakes b { x with
        transfer := ended t.next false, flags := { x.flags with xfer := true }
        tx := x.tx.send (ascii "!INTERRUPTED " ++ dec r ++ crlf) })) ∧
      (b = 0x11#8 → t.next < t.first + t.count →
        (t.form = .all → run = now (sent t.next)) ∧
        (t.form = .filled →
          (∀ n, t.next ≤ n → n < t.first + t.count → (∀ m, t.next ≤ m → m < n → ¬filled m) → filled n →
            run = now (sent n)) ∧
          ((∀ m, t.next ≤ m → m < t.first + t.count → ¬filled m) → run = now { x with
            transfer := ended (t.first + t.count) true, tx := x.tx.send (ascii "OK" ++ crlf) }))))

/-- R207 to R210: the layouts. A frame is STX, its kind, the length of its content in two bytes, the content, and a check byte
that makes the exclusive or of all bytes behind the STX zero. A header's content is 31 bytes, each field at its offset, most
significant byte first. A row frame's content is 16 + W/2 bytes: the row, its sequence, eight qualities (0xFF for EMPTY), two
bits of source a span, and the row's elements as the band holds them (the earlier element of a byte in its high half, log
entry 25), white for an EMPTY span. A tune message is TUNE, a space,
the frequency as five digits, a full stop and one digit, and CR. -/
def Obligations.LayoutsOfFrames : Prop :=
  let num (w : List Byte) : Nat := w.foldl (fun n b => n * 256 + b.toNat) 0
  (∀ (kind : Byte) (content : List Byte), content.length < 65536 → ∃ hi lo check : Byte,
    frame kind content = 0x02#8 :: kind :: hi :: lo :: (content ++ [check]) ∧ num [hi, lo] = content.length ∧
    (kind :: hi :: lo :: (content ++ [check])).foldl (fun x y => x ^^^ y) 0 = 0) ∧
  (∀ (sh : Sheet) (first count : Nat) (form : RowForm), sh.name.length ≤ 12 → sh.chart ≤ 4095 → sh.width ≤ 2048 →
    sh.height ≤ 2048 → sh.lpm ≤ 180 → sh.seq ≤ 4294967295 → sh.filledRows ≤ sh.height → first + count ≤ sh.height →
    let bs := headerContent sh first count form
    bs.length = 31 ∧ bs.take 12 = sh.name ++ List.replicate (12 - sh.name.length) 0x20#8 ∧
    num ((bs.drop 12).take 2) = sh.chart ∧ num ((bs.drop 14).take 2) = sh.width ∧ num ((bs.drop 16).take 2) = sh.height ∧
    num ((bs.drop 18).take 1) = sh.lpm ∧
    num ((bs.drop 19).take 1) =
      (match sh.state with | .defined => 1 | .filling => 2 | .complete => 3 | .retiring => 4) ∧
    num ((bs.drop 20).take 4) = sh.seq ∧ num ((bs.drop 24).take 2) = sh.filledRows ∧ num ((bs.drop 26).take 2) = first ∧
    num ((bs.drop 28).take 2) = count ∧ num (bs.drop 30) = (if form = .all then 0 else 1)) ∧
  (∀ (s : State) (sh : Sheet) (n : Nat), sh.width % 16 = 0 → n < 65536 → (sh.row n).seq ≤ 4294967295 →
    (sh.row n).spans.length = 8 → (∀ sp ∈ (sh.row n).spans, ∀ x, sp = some x → x.quality ≤ 63) →
    let bs := s.rowContent sh n
    bs.length = 16 + sh.width / 2 ∧ num (bs.take 2) = n ∧ num ((bs.drop 2).take 4) = (sh.row n).seq ∧
    ∀ k, k < 8 →
      let span := ((sh.row n).spans[k]?).join
      num ((bs.drop (6 + k)).take 1) = (match span with | some x => x.quality | none => 255) ∧
      num ((bs.drop 14).take 2) / 4 ^ (7 - k) % 4 = (match span with | some x => x.chan.num | none => 0) ∧
      (span = none → ((bs.drop (16 + k * (sh.width / 16))).take (sh.width / 16)) = List.replicate (sh.width / 16) 0xFF#8) ∧
      ∀ x b j, span = some x → sh.bandOf n = some b → j < sh.width / 16 →
        bs[16 + k * (sh.width / 16) + j]? = some (s.mem.read (b * 32768 + n % 32 * 1024 + k * (sh.width / 16) + j))) ∧
  ∀ f, 20000 ≤ f → f ≤ 300000 → tuneMessage f = ascii "TUNE " ++
    [BitVec.ofNat 8 (48 + f / 100000), BitVec.ofNat 8 (48 + f / 10000 % 10), BitVec.ofNat 8 (48 + f / 1000 % 10),
      BitVec.ofNat 8 (48 + f / 100 % 10), BitVec.ofNat 8 (48 + f / 10 % 10), 0x2E#8, BitVec.ofNat 8 (48 + f % 10), 0x0D#8]

/-- R160, R211: reading and writing agree. Every command of the command summary, written with its keyword, its "?" if it is a
query, a space and its arguments joined by commas, with any spaces before and behind, is read as that command with those
arguments; a keyword of the same form that the summary does not hold is unknown; a command whose first character behind its
spaces is no letter, and a "?" followed by anything but a space, break the form; letters are folded to upper case first; and
a number written in decimal is read as that number (log entries 23 and 24 say what else is read). -/
def Obligations.CommandTextIsReadBack : Prop :=
  let summary : List (Text × Bool × Keyword) :=
    [ (ascii "CHAN.TONES", false, .chanTones), (ascii "CHAN.SENSE", false, .chanSense),
      (ascii "CHAN.SQUELCH", false, .chanSquelch), (ascii "CHAN.LOST", false, .chanLost),
      (ascii "CHAN.LOCK", false, .chanLock), (ascii "CHAN.STATE", true, .chanState),
      (ascii "CHAN.ABORT", false, .chanAbort),
      (ascii "SHEET.DEFINE", false, .sheetDefine), (ascii "SHEET.DELETE", false, .sheetDelete),
      (ascii "SHEET.KEEP", false, .sheetKeep), (ascii "SHEET.CATALOG", true, .sheetCatalog),
      (ascii "SHEET.INFO", true, .sheetInfo), (ascii "SHEET.FREE", true, .sheetFree),
      (ascii "SHEET.SELECT", false, .sheetSelect), (ascii "SHEET.SELECT", true, .sheetSelectQuery),
      (ascii "RECV.NOW", false, .recvNow), (ascii "RECV.STOP", false, .recvStop),
      (ascii "RECV.STATUS", true, .recvStatus), (ascii "RECV.LIST", true, .recvList),
      (ascii "SCHED.ADD", false, .schedAdd), (ascii "SCHED.DEL", false, .schedDel),
      (ascii "SCHED.ON", false, .schedOn), (ascii "SCHED.OFF", false, .schedOff),
      (ascii "SCHED.LIST", true, .schedList), (ascii "SCHED.RUN", false, .schedRun),
      (ascii "SCHED.STORE", false, .schedStore),
      (ascii "TIME.SET", false, .timeSet), (ascii "TIME", true, .timeQuery),
      (ascii "SYS.UPTIME", true, .sysUptime),
      (ascii "EVENT.FLAGS", true, .eventFlags), (ascii "EVENT.TAKE", true, .eventTake),
      (ascii "EVENT.CLEAR", false, .eventClear), (ascii "EVENT.SET", false, .eventSet),
      (ascii "EVENT.ENABLE", false, .eventEnable), (ascii "EVENT.DISABLE", false, .eventDisable),
      (ascii "LINE.FILTER", false, .lineFilter), (ascii "LINE.NEWS", true, .lineNews),
      (ascii "LINE.NEWS.DROP", false, .lineNewsDrop), (ascii "LINE.AUTOTAKE", false, .lineAutotake),
      (ascii "SYS.ID", true, .sysId), (ascii "SYS.RESET", false, .sysReset),
      (ascii "ROWS.READ", false, .rowsRead), (ascii "ROWS.SINCE", true, .rowsSince),
      (ascii "ROWS.MAP", true, .rowsMap) ]
  let text (lead : Nat) (key : Text) (query : Bool) (args : List Text) (trail : Nat) : Text :=
    List.replicate lead 0x20#8 ++ key ++ (if query then [0x3F#8] else []) ++
      (if args = [] then [] else 0x20#8 :: (args.intersperse [0x2C#8]).flatten) ++ List.replicate trail 0x20#8
  (∀ (key : Text) (query : Bool) (k : Keyword), (key, query, k) ∈ summary → ∀ args : List Text,
    (∀ a ∈ args, argWf a = true) → args ≠ [[]] → ∀ lead trail, parseCommand (text lead key query args trail) = .known k args) ∧
  (∀ (key : Text) (query : Bool), key ≠ [] → (∀ b ∈ key.take 1, isLetter b = true) →
    (∀ b ∈ key, isLetter b = true ∨ b = 0x2E#8) → (∀ k, (key, query, k) ∉ summary) → ∀ args : List Text,
    (∀ a ∈ args, argWf a = true) → ∀ lead trail, parseCommand (text lead key query args trail) = .unknown) ∧
  (∀ (lead : Nat) (b : Byte) (rest : Text), b ≠ 0x20#8 → isLetter (upper b) = false →
    parseCommand (List.replicate lead 0x20#8 ++ b :: rest) = .malformed) ∧
  (∀ (key : Text) (b : Byte) (rest : Text), (∀ x ∈ key, isLetter x = true) → key ≠ [] → b ≠ 0x20#8 →
    parseCommand (key ++ 0x3F#8 :: b :: rest) = .malformed) ∧
  (∀ n, parseCommand (List.replicate n 0x20#8) = .malformed) ∧
  (∀ t : Text, parseCommand (t.map upper) = parseCommand t) ∧
  (∀ n, number? (dec n) = some n ∧ ((dec n).head? = some 0x30#8 → n = 0)) ∧
  (∀ t : Text, (number? t).isSome ↔ t ≠ [] ∧ ∀ b ∈ t, 0x30#8 ≤ b ∧ b ≤ 0x39#8) ∧
  (∀ (t : Text) (n d : Nat), number? t = some n → d < 10 → number? (t ++ [BitVec.ofNat 8 (48 + d)]) = some (n * 10 + d)) ∧
  ∀ d : Int, signedNumber? (signed d) = some d

/-! ### Invariants -/

/-- The state right after reset satisfies every invariant of the statements below. -/
def Obligations.ResetMeetsInvariants : Prop :=
  Memory.wf State.reset.mem ∧ State.reset.tablesWf ∧ State.reset.timeWf ∧ State.reset.channelsWf ∧ State.reset.linesWf ∧
  State.reset.schedulesWf ∧ State.reset.bandsWf ∧ State.reset.readersWf ∧ State.reset.sheetsWf ∧ State.reset.numbersWf ∧
  State.reset.membersWf ∧ State.reset.writersWf

/-- Every step keeps: the canonical form of the band pool's memory (log entry 25); the bounds of the pool (32 records,
R57), the directory (24 entries, R78) and the reception table (8 records, R110); and a set time of day inside the day
(R134). And over every step a sheet of the directory that is not freed in it keeps what it stores: no stored span becomes EMPTY
and no stored quality decreases (R68), its change sequence does not decrease (R69) nor its filled-row count (R70), and its
name, chart id, width, line rate and height stay (R77). A sheet freed within the step has FREED sent to every line (R84). -/
def Obligations.MemoryAndTablesKept : Prop :=
  KeptByEveryStep (fun s => Memory.wf s.mem) ∧ KeptByEveryStep State.tablesWf ∧ KeptByEveryStep State.timeWf ∧
  ∀ (s t : State) (i : Nat) (sh new : Sheet), step s = .next t → s.sheet i = some sh → t.sheet i = some new →
    ¬s.sentFreed t sh → sh.keeps new

/-- Every step keeps: every channel's settings in their ranges with the white tone 200 Hz or more above the black, its
marker run shorter than the lock count and held only while collecting, its lost-line count short of the limit, its listen
timer running in LISTENING and PHASING (collecting) and stopped in IMAGING, its current row inside the sheet (R2, R9, R10,
R13 to R15, R17, R21, R22), and a tune message waiting only behind one being sent (R19); and every line's buffer of at
most 256 characters (R157), news list of at most 8 OPENED and DONE entries, no two of one sheet and kind (R174, R175), and
filter in its ranges (R172). -/
def Obligations.ChannelsAndLinesKept : Prop :=
  KeptByEveryStep State.channelsWf ∧ KeptByEveryStep State.linesWf

/-- Every step keeps the schedule table, a valid image of the schedule store and a snapshot being written tables of at
most 32 entries, every field of each in its range, in table order with distinct ids, no two enabled entries of which
occupy a minute in common while sharing a channel (R138, R139). -/
def Obligations.SchedulesKept : Prop := KeptByEveryStep State.schedulesWf

/-- Every step keeps: every band of the pool in the free set or allocated to exactly one place of one sheet (R85); and every
sheet's readers count the number of lines whose transfer in flight reads it, an interpreter being HELD while its line has a
transfer or a schedule store write in flight (R81, R163). -/
def Obligations.BandsAndReadersKept : Prop :=
  KeptByEveryStep State.bandsWf ∧ KeptByEveryStep State.readersWf

/-- Every step keeps, together with the two invariants of the statement before: every sheet's fields in agreement, FILLING
exactly with writers, RETIRING only with readers, and filled rows counted (R69, R70, R81, R83), and no two sheets of one name
(R79); the reception numbers
0-255 and distinct (R112); one member entry for each channel of a record, every channel that is a member the active member
of exactly one OPEN record, every OPEN record with an active member, and an end notice in flight for every active member
whose channel is IDLE (R3, R110, R113); and every sheet's writers count the number of OPEN receptions bound to it and of
unbinds in flight (R81, R92). -/
def Obligations.ReceptionsAndSheetsKept : Prop :=
  KeptByEveryStep fun s => s.tablesWf ∧ s.sheetsWf ∧ s.bandsWf ∧ s.readersWf ∧ s.numbersWf ∧ s.membersWf ∧ s.writersWf
end

