-- ==== Sys2Proof/Laws/State.lean ====
section
/-! SUPPORT. What each named update of the state leaves of each field: one lemma per field per update, so that no later
proof unfolds a record update; and how a value per channel or per line reads after an update. -/

namespace Sys2Proof

/-! ### One value per channel, one value per line -/

@[simp] theorem Quad.get_upd_self {α : Type} (q : Quad α) (ch : Chan) (f : α → α) : (q.upd ch f).get ch = f (q.get ch) := by
  cases ch <;> rfl

theorem Quad.get_upd_ne {α : Type} (q : Quad α) {ch d : Chan} (f : α → α) (h : d ≠ ch) :
    (q.upd ch f).get d = q.get d := by
  cases ch <;> cases d <;> first | rfl | exact absurd rfl h

@[simp] theorem Quad.get_mapAll {α β : Type} (q : Quad α) (f : Chan → α → β) (ch : Chan) :
    (q.mapAll f).get ch = f ch (q.get ch) := by
  cases ch <;> rfl

@[simp] theorem Triple.get_upd_self {α : Type} (t : Triple α) (l : LineId) (f : α → α) :
    (t.upd l f).get l = f (t.get l) := by
  cases l <;> rfl

theorem Triple.get_upd_ne {α : Type} (t : Triple α) {l k : LineId} (f : α → α) (h : k ≠ l) :
    (t.upd l f).get k = t.get k := by
  cases l <;> cases k <;> first | rfl | exact absurd rfl h

@[simp] theorem Triple.get_mapAll {α β : Type} (t : Triple α) (f : α → β) (l : LineId) :
    (t.mapAll f).get l = f (t.get l) := by
  cases l <;> rfl

theorem Triple.upd_upd {α : Type} (t : Triple α) (l : LineId) (f g : α → α) :
    (t.upd l f).upd l g = t.upd l (fun x => g (f x)) := by
  cases l <;> rfl

theorem Quad.upd_upd {α : Type} (q : Quad α) (ch : Chan) (f g : α → α) :
    (q.upd ch f).upd ch g = q.upd ch (fun x => g (f x)) := by
  cases ch <;> rfl

namespace Machine

variable (s : State)

/-! ### Lines and channels after an update -/

@[simp] theorem State.line_updLine_self (l : LineId) (f : Line → Line) : (s.updLine l f).line l = f (s.line l) :=
  Triple.get_upd_self _ _ _

theorem State.line_updLine_ne {l k : LineId} (f : Line → Line) (h : k ≠ l) : (s.updLine l f).line k = s.line k :=
  Triple.get_upd_ne _ _ h

@[simp] theorem State.line_mapLines (f : Line → Line) (l : LineId) : (s.mapLines f).line l = f (s.line l) :=
  Triple.get_mapAll _ _ _

theorem State.updLine_updLine (l : LineId) (f g : Line → Line) :
    (s.updLine l f).updLine l g = s.updLine l (fun x => g (f x)) := by
  cases l <;> rfl

@[simp] theorem State.chan_updChan_self (ch : Chan) (f : Channel → Channel) : (s.updChan ch f).chan ch = f (s.chan ch) :=
  Quad.get_upd_self _ _ _

theorem State.chan_updChan_ne {ch d : Chan} (f : Channel → Channel) (h : d ≠ ch) : (s.updChan ch f).chan d = s.chan d :=
  Quad.get_upd_ne _ _ h

@[simp] theorem State.chan_mapChans (f : Chan → Channel → Channel) (ch : Chan) : (s.mapChans f).chan ch = f ch (s.chan ch) :=
  Quad.get_mapAll _ _ _


/-! ### updChan -/

@[simp] theorem State.updChan_powered (ch : Chan) (f : Channel → Channel) : (s.updChan ch f).powered = s.powered := rfl
@[simp] theorem State.updChan_resetInput (ch : Chan) (f : Channel → Channel) : (s.updChan ch f).resetInput = s.resetInput := rfl
@[simp] theorem State.updChan_resetDue (ch : Chan) (f : Channel → Channel) : (s.updChan ch f).resetDue = s.resetDue := rfl
@[simp] theorem State.updChan_sysReset (ch : Chan) (f : Channel → Channel) : (s.updChan ch f).sysReset = s.sysReset := rfl
@[simp] theorem State.updChan_inReset (ch : Chan) (f : Channel → Channel) : (s.updChan ch f).inReset = s.inReset := rfl
@[simp] theorem State.updChan_clock (ch : Chan) (f : Channel → Channel) : (s.updChan ch f).clock = s.clock := rfl
@[simp] theorem State.updChan_chans (ch : Chan) (f : Channel → Channel) : (s.updChan ch f).chans = s.chans.upd ch f := rfl
@[simp] theorem State.updChan_pool (ch : Chan) (f : Channel → Channel) : (s.updChan ch f).pool = s.pool := rfl
@[simp] theorem State.updChan_hand (ch : Chan) (f : Channel → Channel) : (s.updChan ch f).hand = s.hand := rfl
@[simp] theorem State.updChan_dir (ch : Chan) (f : Channel → Channel) : (s.updChan ch f).dir = s.dir := rfl
@[simp] theorem State.updChan_freeBands (ch : Chan) (f : Channel → Channel) : (s.updChan ch f).freeBands = s.freeBands := rfl
@[simp] theorem State.updChan_mem (ch : Chan) (f : Channel → Channel) : (s.updChan ch f).mem = s.mem := rfl
@[simp] theorem State.updChan_latest (ch : Chan) (f : Channel → Channel) : (s.updChan ch f).latest = s.latest := rfl
@[simp] theorem State.updChan_unbinds (ch : Chan) (f : Channel → Channel) : (s.updChan ch f).unbinds = s.unbinds := rfl
@[simp] theorem State.updChan_storedNotices (ch : Chan) (f : Channel → Channel) : (s.updChan ch f).storedNotices = s.storedNotices := rfl
@[simp] theorem State.updChan_notStoredNotices (ch : Chan) (f : Channel → Channel) : (s.updChan ch f).notStoredNotices = s.notStoredNotices := rfl
@[simp] theorem State.updChan_recs (ch : Chan) (f : Channel → Channel) : (s.updChan ch f).recs = s.recs := rfl
@[simp] theorem State.updChan_lastNumber (ch : Chan) (f : Channel → Channel) : (s.updChan ch f).lastNumber = s.lastNumber := rfl
@[simp] theorem State.updChan_sched (ch : Chan) (f : Channel → Channel) : (s.updChan ch f).sched = s.sched := rfl
@[simp] theorem State.updChan_schedRun (ch : Chan) (f : Channel → Channel) : (s.updChan ch f).schedRun = s.schedRun := rfl
@[simp] theorem State.updChan_tod (ch : Chan) (f : Channel → Channel) : (s.updChan ch f).tod = s.tod := rfl
@[simp] theorem State.updChan_runSeconds (ch : Chan) (f : Channel → Channel) : (s.updChan ch f).runSeconds = s.runSeconds := rfl
@[simp] theorem State.updChan_minuteEvents (ch : Chan) (f : Channel → Channel) : (s.updChan ch f).minuteEvents = s.minuteEvents := rfl
@[simp] theorem State.updChan_image (ch : Chan) (f : Channel → Channel) : (s.updChan ch f).image = s.image := rfl
@[simp] theorem State.updChan_writer (ch : Chan) (f : Channel → Channel) : (s.updChan ch f).writer = s.writer := rfl
@[simp] theorem State.updChan_lines (ch : Chan) (f : Channel → Channel) : (s.updChan ch f).lines = s.lines := rfl
@[simp] theorem State.updChan_pending (ch : Chan) (f : Channel → Channel) : (s.updChan ch f).pending = s.pending := rfl
@[simp] theorem State.updChan_line (ch : Chan) (f : Channel → Channel) (l : LineId) : (s.updChan ch f).line l = s.line l := rfl
@[simp] theorem State.updChan_sheet (ch : Chan) (f : Channel → Channel) (j : Nat) : (s.updChan ch f).sheet j = s.sheet j := rfl
@[simp] theorem State.updChan_reception (ch : Chan) (f : Channel → Channel) (j : Nat) : (s.updChan ch f).reception j = s.reception j := rfl

/-! ### mapChans -/

@[simp] theorem State.mapChans_powered (f : Chan → Channel → Channel) : (s.mapChans f).powered = s.powered := rfl
@[simp] theorem State.mapChans_resetInput (f : Chan → Channel → Channel) : (s.mapChans f).resetInput = s.resetInput := rfl
@[simp] theorem State.mapChans_resetDue (f : Chan → Channel → Channel) : (s.mapChans f).resetDue = s.resetDue := rfl
@[simp] theorem State.mapChans_sysReset (f : Chan → Channel → Channel) : (s.mapChans f).sysReset = s.sysReset := rfl
@[simp] theorem State.mapChans_inReset (f : Chan → Channel → Channel) : (s.mapChans f).inReset = s.inReset := rfl
@[simp] theorem State.mapChans_clock (f : Chan → Channel → Channel) : (s.mapChans f).clock = s.clock := rfl
@[simp] theorem State.mapChans_chans (f : Chan → Channel → Channel) : (s.mapChans f).chans = s.chans.mapAll f := rfl
@[simp] theorem State.mapChans_pool (f : Chan → Channel → Channel) : (s.mapChans f).pool = s.pool := rfl
@[simp] theorem State.mapChans_hand (f : Chan → Channel → Channel) : (s.mapChans f).hand = s.hand := rfl
@[simp] theorem State.mapChans_dir (f : Chan → Channel → Channel) : (s.mapChans f).dir = s.dir := rfl
@[simp] theorem State.mapChans_freeBands (f : Chan → Channel → Channel) : (s.mapChans f).freeBands = s.freeBands := rfl
@[simp] theorem State.mapChans_mem (f : Chan → Channel → Channel) : (s.mapChans f).mem = s.mem := rfl
@[simp] theorem State.mapChans_latest (f : Chan → Channel → Channel) : (s.mapChans f).latest = s.latest := rfl
@[simp] theorem State.mapChans_unbinds (f : Chan → Channel → Channel) : (s.mapChans f).unbinds = s.unbinds := rfl
@[simp] theorem State.mapChans_storedNotices (f : Chan → Channel → Channel) : (s.mapChans f).storedNotices = s.storedNotices := rfl
@[simp] theorem State.mapChans_notStoredNotices (f : Chan → Channel → Channel) : (s.mapChans f).notStoredNotices = s.notStoredNotices := rfl
@[simp] theorem State.mapChans_recs (f : Chan → Channel → Channel) : (s.mapChans f).recs = s.recs := rfl
@[simp] theorem State.mapChans_lastNumber (f : Chan → Channel → Channel) : (s.mapChans f).lastNumber = s.lastNumber := rfl
@[simp] theorem State.mapChans_sched (f : Chan → Channel → Channel) : (s.mapChans f).sched = s.sched := rfl
@[simp] theorem State.mapChans_schedRun (f : Chan → Channel → Channel) : (s.mapChans f).schedRun = s.schedRun := rfl
@[simp] theorem State.mapChans_tod (f : Chan → Channel → Channel) : (s.mapChans f).tod = s.tod := rfl
@[simp] theorem State.mapChans_runSeconds (f : Chan → Channel → Channel) : (s.mapChans f).runSeconds = s.runSeconds := rfl
@[simp] theorem State.mapChans_minuteEvents (f : Chan → Channel → Channel) : (s.mapChans f).minuteEvents = s.minuteEvents := rfl
@[simp] theorem State.mapChans_image (f : Chan → Channel → Channel) : (s.mapChans f).image = s.image := rfl
@[simp] theorem State.mapChans_writer (f : Chan → Channel → Channel) : (s.mapChans f).writer = s.writer := rfl
@[simp] theorem State.mapChans_lines (f : Chan → Channel → Channel) : (s.mapChans f).lines = s.lines := rfl
@[simp] theorem State.mapChans_pending (f : Chan → Channel → Channel) : (s.mapChans f).pending = s.pending := rfl
@[simp] theorem State.mapChans_line (f : Chan → Channel → Channel) (l : LineId) : (s.mapChans f).line l = s.line l := rfl
@[simp] theorem State.mapChans_sheet (f : Chan → Channel → Channel) (j : Nat) : (s.mapChans f).sheet j = s.sheet j := rfl
@[simp] theorem State.mapChans_reception (f : Chan → Channel → Channel) (j : Nat) : (s.mapChans f).reception j = s.reception j := rfl

/-! ### updLine -/

@[simp] theorem State.updLine_powered (l : LineId) (f : Line → Line) : (s.updLine l f).powered = s.powered := rfl
@[simp] theorem State.updLine_resetInput (l : LineId) (f : Line → Line) : (s.updLine l f).resetInput = s.resetInput := rfl
@[simp] theorem State.updLine_resetDue (l : LineId) (f : Line → Line) : (s.updLine l f).resetDue = s.resetDue := rfl
@[simp] theorem State.updLine_sysReset (l : LineId) (f : Line → Line) : (s.updLine l f).sysReset = s.sysReset := rfl
@[simp] theorem State.updLine_inReset (l : LineId) (f : Line → Line) : (s.updLine l f).inReset = s.inReset := rfl
@[simp] theorem State.updLine_clock (l : LineId) (f : Line → Line) : (s.updLine l f).clock = s.clock := rfl
@[simp] theorem State.updLine_chans (l : LineId) (f : Line → Line) : (s.updLine l f).chans = s.chans := rfl
@[simp] theorem State.updLine_pool (l : LineId) (f : Line → Line) : (s.updLine l f).pool = s.pool := rfl
@[simp] theorem State.updLine_hand (l : LineId) (f : Line → Line) : (s.updLine l f).hand = s.hand := rfl
@[simp] theorem State.updLine_dir (l : LineId) (f : Line → Line) : (s.updLine l f).dir = s.dir := rfl
@[simp] theorem State.updLine_freeBands (l : LineId) (f : Line → Line) : (s.updLine l f).freeBands = s.freeBands := rfl
@[simp] theorem State.updLine_mem (l : LineId) (f : Line → Line) : (s.updLine l f).mem = s.mem := rfl
@[simp] theorem State.updLine_latest (l : LineId) (f : Line → Line) : (s.updLine l f).latest = s.latest := rfl
@[simp] theorem State.updLine_unbinds (l : LineId) (f : Line → Line) : (s.updLine l f).unbinds = s.unbinds := rfl
@[simp] theorem State.updLine_storedNotices (l : LineId) (f : Line → Line) : (s.updLine l f).storedNotices = s.storedNotices := rfl
@[simp] theorem State.updLine_notStoredNotices (l : LineId) (f : Line → Line) : (s.updLine l f).notStoredNotices = s.notStoredNotices := rfl
@[simp] theorem State.updLine_recs (l : LineId) (f : Line → Line) : (s.updLine l f).recs = s.recs := rfl
@[simp] theorem State.updLine_lastNumber (l : LineId) (f : Line → Line) : (s.updLine l f).lastNumber = s.lastNumber := rfl
@[simp] theorem State.updLine_sched (l : LineId) (f : Line → Line) : (s.updLine l f).sched = s.sched := rfl
@[simp] theorem State.updLine_schedRun (l : LineId) (f : Line → Line) : (s.updLine l f).schedRun = s.schedRun := rfl
@[simp] theorem State.updLine_tod (l : LineId) (f : Line → Line) : (s.updLine l f).tod = s.tod := rfl
@[simp] theorem State.updLine_runSeconds (l : LineId) (f : Line → Line) : (s.updLine l f).runSeconds = s.runSeconds := rfl
@[simp] theorem State.updLine_minuteEvents (l : LineId) (f : Line → Line) : (s.updLine l f).minuteEvents = s.minuteEvents := rfl
@[simp] theorem State.updLine_image (l : LineId) (f : Line → Line) : (s.updLine l f).image = s.image := rfl
@[simp] theorem State.updLine_writer (l : LineId) (f : Line → Line) : (s.updLine l f).writer = s.writer := rfl
@[simp] theorem State.updLine_lines (l : LineId) (f : Line → Line) : (s.updLine l f).lines = s.lines.upd l f := rfl
@[simp] theorem State.updLine_pending (l : LineId) (f : Line → Line) : (s.updLine l f).pending = s.pending := rfl
@[simp] theorem State.updLine_chan (l : LineId) (f : Line → Line) (ch : Chan) : (s.updLine l f).chan ch = s.chan ch := rfl
@[simp] theorem State.updLine_sheet (l : LineId) (f : Line → Line) (j : Nat) : (s.updLine l f).sheet j = s.sheet j := rfl
@[simp] theorem State.updLine_reception (l : LineId) (f : Line → Line) (j : Nat) : (s.updLine l f).reception j = s.reception j := rfl

/-! ### mapLines -/

@[simp] theorem State.mapLines_powered (f : Line → Line) : (s.mapLines f).powered = s.powered := rfl
@[simp] theorem State.mapLines_resetInput (f : Line → Line) : (s.mapLines f).resetInput = s.resetInput := rfl
@[simp] theorem State.mapLines_resetDue (f : Line → Line) : (s.mapLines f).resetDue = s.resetDue := rfl
@[simp] theorem State.mapLines_sysReset (f : Line → Line) : (s.mapLines f).sysReset = s.sysReset := rfl
@[simp] theorem State.mapLines_inReset (f : Line → Line) : (s.mapLines f).inReset = s.inReset := rfl
@[simp] theorem State.mapLines_clock (f : Line → Line) : (s.mapLines f).clock = s.clock := rfl
@[simp] theorem State.mapLines_chans (f : Line → Line) : (s.mapLines f).chans = s.chans := rfl
@[simp] theorem State.mapLines_pool (f : Line → Line) : (s.mapLines f).pool = s.pool := rfl
@[simp] theorem State.mapLines_hand (f : Line → Line) : (s.mapLines f).hand = s.hand := rfl
@[simp] theorem State.mapLines_dir (f : Line → Line) : (s.mapLines f).dir = s.dir := rfl
@[simp] theorem State.mapLines_freeBands (f : Line → Line) : (s.mapLines f).freeBands = s.freeBands := rfl
@[simp] theorem State.mapLines_mem (f : Line → Line) : (s.mapLines f).mem = s.mem := rfl
@[simp] theorem State.mapLines_latest (f : Line → Line) : (s.mapLines f).latest = s.latest := rfl
@[simp] theorem State.mapLines_unbinds (f : Line → Line) : (s.mapLines f).unbinds = s.unbinds := rfl
@[simp] theorem State.mapLines_storedNotices (f : Line → Line) : (s.mapLines f).storedNotices = s.storedNotices := rfl
@[simp] theorem State.mapLines_notStoredNotices (f : Line → Line) : (s.mapLines f).notStoredNotices = s.notStoredNotices := rfl
@[simp] theorem State.mapLines_recs (f : Line → Line) : (s.mapLines f).recs = s.recs := rfl
@[simp] theorem State.mapLines_lastNumber (f : Line → Line) : (s.mapLines f).lastNumber = s.lastNumber := rfl
@[simp] theorem State.mapLines_sched (f : Line → Line) : (s.mapLines f).sched = s.sched := rfl
@[simp] theorem State.mapLines_schedRun (f : Line → Line) : (s.mapLines f).schedRun = s.schedRun := rfl
@[simp] theorem State.mapLines_tod (f : Line → Line) : (s.mapLines f).tod = s.tod := rfl
@[simp] theorem State.mapLines_runSeconds (f : Line → Line) : (s.mapLines f).runSeconds = s.runSeconds := rfl
@[simp] theorem State.mapLines_minuteEvents (f : Line → Line) : (s.mapLines f).minuteEvents = s.minuteEvents := rfl
@[simp] theorem State.mapLines_image (f : Line → Line) : (s.mapLines f).image = s.image := rfl
@[simp] theorem State.mapLines_writer (f : Line → Line) : (s.mapLines f).writer = s.writer := rfl
@[simp] theorem State.mapLines_lines (f : Line → Line) : (s.mapLines f).lines = s.lines.mapAll f := rfl
@[simp] theorem State.mapLines_pending (f : Line → Line) : (s.mapLines f).pending = s.pending := rfl
@[simp] theorem State.mapLines_chan (f : Line → Line) (ch : Chan) : (s.mapLines f).chan ch = s.chan ch := rfl
@[simp] theorem State.mapLines_sheet (f : Line → Line) (j : Nat) : (s.mapLines f).sheet j = s.sheet j := rfl
@[simp] theorem State.mapLines_reception (f : Line → Line) (j : Nat) : (s.mapLines f).reception j = s.reception j := rfl

/-! ### setSheet -/

@[simp] theorem State.setSheet_powered (i : Nat) (sh : Sheet) : (s.setSheet i sh).powered = s.powered := rfl
@[simp] theorem State.setSheet_resetInput (i : Nat) (sh : Sheet) : (s.setSheet i sh).resetInput = s.resetInput := rfl
@[simp] theorem State.setSheet_resetDue (i : Nat) (sh : Sheet) : (s.setSheet i sh).resetDue = s.resetDue := rfl
@[simp] theorem State.setSheet_sysReset (i : Nat) (sh : Sheet) : (s.setSheet i sh).sysReset = s.sysReset := rfl
@[simp] theorem State.setSheet_inReset (i : Nat) (sh : Sheet) : (s.setSheet i sh).inReset = s.inReset := rfl
@[simp] theorem State.setSheet_clock (i : Nat) (sh : Sheet) : (s.setSheet i sh).clock = s.clock := rfl
@[simp] theorem State.setSheet_chans (i : Nat) (sh : Sheet) : (s.setSheet i sh).chans = s.chans := rfl
@[simp] theorem State.setSheet_pool (i : Nat) (sh : Sheet) : (s.setSheet i sh).pool = s.pool := rfl
@[simp] theorem State.setSheet_hand (i : Nat) (sh : Sheet) : (s.setSheet i sh).hand = s.hand := rfl
@[simp] theorem State.setSheet_dir (i : Nat) (sh : Sheet) : (s.setSheet i sh).dir = s.dir.set i (some sh) := rfl
@[simp] theorem State.setSheet_freeBands (i : Nat) (sh : Sheet) : (s.setSheet i sh).freeBands = s.freeBands := rfl
@[simp] theorem State.setSheet_mem (i : Nat) (sh : Sheet) : (s.setSheet i sh).mem = s.mem := rfl
@[simp] theorem State.setSheet_latest (i : Nat) (sh : Sheet) : (s.setSheet i sh).latest = s.latest := rfl
@[simp] theorem State.setSheet_unbinds (i : Nat) (sh : Sheet) : (s.setSheet i sh).unbinds = s.unbinds := rfl
@[simp] theorem State.setSheet_storedNotices (i : Nat) (sh : Sheet) : (s.setSheet i sh).storedNotices = s.storedNotices := rfl
@[simp] theorem State.setSheet_notStoredNotices (i : Nat) (sh : Sheet) : (s.setSheet i sh).notStoredNotices = s.notStoredNotices := rfl
@[simp] theorem State.setSheet_recs (i : Nat) (sh : Sheet) : (s.setSheet i sh).recs = s.recs := rfl
@[simp] theorem State.setSheet_lastNumber (i : Nat) (sh : Sheet) : (s.setSheet i sh).lastNumber = s.lastNumber := rfl
@[simp] theorem State.setSheet_sched (i : Nat) (sh : Sheet) : (s.setSheet i sh).sched = s.sched := rfl
@[simp] theorem State.setSheet_schedRun (i : Nat) (sh : Sheet) : (s.setSheet i sh).schedRun = s.schedRun := rfl
@[simp] theorem State.setSheet_tod (i : Nat) (sh : Sheet) : (s.setSheet i sh).tod = s.tod := rfl
@[simp] theorem State.setSheet_runSeconds (i : Nat) (sh : Sheet) : (s.setSheet i sh).runSeconds = s.runSeconds := rfl
@[simp] theorem State.setSheet_minuteEvents (i : Nat) (sh : Sheet) : (s.setSheet i sh).minuteEvents = s.minuteEvents := rfl
@[simp] theorem State.setSheet_image (i : Nat) (sh : Sheet) : (s.setSheet i sh).image = s.image := rfl
@[simp] theorem State.setSheet_writer (i : Nat) (sh : Sheet) : (s.setSheet i sh).writer = s.writer := rfl
@[simp] theorem State.setSheet_lines (i : Nat) (sh : Sheet) : (s.setSheet i sh).lines = s.lines := rfl
@[simp] theorem State.setSheet_pending (i : Nat) (sh : Sheet) : (s.setSheet i sh).pending = s.pending := rfl
@[simp] theorem State.setSheet_chan (i : Nat) (sh : Sheet) (ch : Chan) : (s.setSheet i sh).chan ch = s.chan ch := rfl
@[simp] theorem State.setSheet_line (i : Nat) (sh : Sheet) (l : LineId) : (s.setSheet i sh).line l = s.line l := rfl
@[simp] theorem State.setSheet_reception (i : Nat) (sh : Sheet) (j : Nat) : (s.setSheet i sh).reception j = s.reception j := rfl

/-! ### updSheet -/

@[simp] theorem State.updSheet_powered (i : Nat) (f : Sheet → Sheet) : (s.updSheet i f).powered = s.powered := rfl
@[simp] theorem State.updSheet_resetInput (i : Nat) (f : Sheet → Sheet) : (s.updSheet i f).resetInput = s.resetInput := rfl
@[simp] theorem State.updSheet_resetDue (i : Nat) (f : Sheet → Sheet) : (s.updSheet i f).resetDue = s.resetDue := rfl
@[simp] theorem State.updSheet_sysReset (i : Nat) (f : Sheet → Sheet) : (s.updSheet i f).sysReset = s.sysReset := rfl
@[simp] theorem State.updSheet_inReset (i : Nat) (f : Sheet → Sheet) : (s.updSheet i f).inReset = s.inReset := rfl
@[simp] theorem State.updSheet_clock (i : Nat) (f : Sheet → Sheet) : (s.updSheet i f).clock = s.clock := rfl
@[simp] theorem State.updSheet_chans (i : Nat) (f : Sheet → Sheet) : (s.updSheet i f).chans = s.chans := rfl
@[simp] theorem State.updSheet_pool (i : Nat) (f : Sheet → Sheet) : (s.updSheet i f).pool = s.pool := rfl
@[simp] theorem State.updSheet_hand (i : Nat) (f : Sheet → Sheet) : (s.updSheet i f).hand = s.hand := rfl
@[simp] theorem State.updSheet_dir (i : Nat) (f : Sheet → Sheet) : (s.updSheet i f).dir = s.dir.modify i (Option.map f) := rfl
@[simp] theorem State.updSheet_freeBands (i : Nat) (f : Sheet → Sheet) : (s.updSheet i f).freeBands = s.freeBands := rfl
@[simp] theorem State.updSheet_mem (i : Nat) (f : Sheet → Sheet) : (s.updSheet i f).mem = s.mem := rfl
@[simp] theorem State.updSheet_latest (i : Nat) (f : Sheet → Sheet) : (s.updSheet i f).latest = s.latest := rfl
@[simp] theorem State.updSheet_unbinds (i : Nat) (f : Sheet → Sheet) : (s.updSheet i f).unbinds = s.unbinds := rfl
@[simp] theorem State.updSheet_storedNotices (i : Nat) (f : Sheet → Sheet) : (s.updSheet i f).storedNotices = s.storedNotices := rfl
@[simp] theorem State.updSheet_notStoredNotices (i : Nat) (f : Sheet → Sheet) : (s.updSheet i f).notStoredNotices = s.notStoredNotices := rfl
@[simp] theorem State.updSheet_recs (i : Nat) (f : Sheet → Sheet) : (s.updSheet i f).recs = s.recs := rfl
@[simp] theorem State.updSheet_lastNumber (i : Nat) (f : Sheet → Sheet) : (s.updSheet i f).lastNumber = s.lastNumber := rfl
@[simp] theorem State.updSheet_sched (i : Nat) (f : Sheet → Sheet) : (s.updSheet i f).sched = s.sched := rfl
@[simp] theorem State.updSheet_schedRun (i : Nat) (f : Sheet → Sheet) : (s.updSheet i f).schedRun = s.schedRun := rfl
@[simp] theorem State.updSheet_tod (i : Nat) (f : Sheet → Sheet) : (s.updSheet i f).tod = s.tod := rfl
@[simp] theorem State.updSheet_runSeconds (i : Nat) (f : Sheet → Sheet) : (s.updSheet i f).runSeconds = s.runSeconds := rfl
@[simp] theorem State.updSheet_minuteEvents (i : Nat) (f : Sheet → Sheet) : (s.updSheet i f).minuteEvents = s.minuteEvents := rfl
@[simp] theorem State.updSheet_image (i : Nat) (f : Sheet → Sheet) : (s.updSheet i f).image = s.image := rfl
@[simp] theorem State.updSheet_writer (i : Nat) (f : Sheet → Sheet) : (s.updSheet i f).writer = s.writer := rfl
@[simp] theorem State.updSheet_lines (i : Nat) (f : Sheet → Sheet) : (s.updSheet i f).lines = s.lines := rfl
@[simp] theorem State.updSheet_pending (i : Nat) (f : Sheet → Sheet) : (s.updSheet i f).pending = s.pending := rfl
@[simp] theorem State.updSheet_chan (i : Nat) (f : Sheet → Sheet) (ch : Chan) : (s.updSheet i f).chan ch = s.chan ch := rfl
@[simp] theorem State.updSheet_line (i : Nat) (f : Sheet → Sheet) (l : LineId) : (s.updSheet i f).line l = s.line l := rfl
@[simp] theorem State.updSheet_reception (i : Nat) (f : Sheet → Sheet) (j : Nat) : (s.updSheet i f).reception j = s.reception j := rfl

/-! ### updRec -/

@[simp] theorem State.updRec_powered (k : Nat) (f : Reception → Reception) : (s.updRec k f).powered = s.powered := rfl
@[simp] theorem State.updRec_resetInput (k : Nat) (f : Reception → Reception) : (s.updRec k f).resetInput = s.resetInput := rfl
@[simp] theorem State.updRec_resetDue (k : Nat) (f : Reception → Reception) : (s.updRec k f).resetDue = s.resetDue := rfl
@[simp] theorem State.updRec_sysReset (k : Nat) (f : Reception → Reception) : (s.updRec k f).sysReset = s.sysReset := rfl
@[simp] theorem State.updRec_inReset (k : Nat) (f : Reception → Reception) : (s.updRec k f).inReset = s.inReset := rfl
@[simp] theorem State.updRec_clock (k : Nat) (f : Reception → Reception) : (s.updRec k f).clock = s.clock := rfl
@[simp] theorem State.updRec_chans (k : Nat) (f : Reception → Reception) : (s.updRec k f).chans = s.chans := rfl
@[simp] theorem State.updRec_pool (k : Nat) (f : Reception → Reception) : (s.updRec k f).pool = s.pool := rfl
@[simp] theorem State.updRec_hand (k : Nat) (f : Reception → Reception) : (s.updRec k f).hand = s.hand := rfl
@[simp] theorem State.updRec_dir (k : Nat) (f : Reception → Reception) : (s.updRec k f).dir = s.dir := rfl
@[simp] theorem State.updRec_freeBands (k : Nat) (f : Reception → Reception) : (s.updRec k f).freeBands = s.freeBands := rfl
@[simp] theorem State.updRec_mem (k : Nat) (f : Reception → Reception) : (s.updRec k f).mem = s.mem := rfl
@[simp] theorem State.updRec_latest (k : Nat) (f : Reception → Reception) : (s.updRec k f).latest = s.latest := rfl
@[simp] theorem State.updRec_unbinds (k : Nat) (f : Reception → Reception) : (s.updRec k f).unbinds = s.unbinds := rfl
@[simp] theorem State.updRec_storedNotices (k : Nat) (f : Reception → Reception) : (s.updRec k f).storedNotices = s.storedNotices := rfl
@[simp] theorem State.updRec_notStoredNotices (k : Nat) (f : Reception → Reception) : (s.updRec k f).notStoredNotices = s.notStoredNotices := rfl
@[simp] theorem State.updRec_recs (k : Nat) (f : Reception → Reception) : (s.updRec k f).recs = s.recs.modify k (Option.map f) := rfl
@[simp] theorem State.updRec_lastNumber (k : Nat) (f : Reception → Reception) : (s.updRec k f).lastNumber = s.lastNumber := rfl
@[simp] theorem State.updRec_sched (k : Nat) (f : Reception → Reception) : (s.updRec k f).sched = s.sched := rfl
@[simp] theorem State.updRec_schedRun (k : Nat) (f : Reception → Reception) : (s.updRec k f).schedRun = s.schedRun := rfl
@[simp] theorem State.updRec_tod (k : Nat) (f : Reception → Reception) : (s.updRec k f).tod = s.tod := rfl
@[simp] theorem State.updRec_runSeconds (k : Nat) (f : Reception → Reception) : (s.updRec k f).runSeconds = s.runSeconds := rfl
@[simp] theorem State.updRec_minuteEvents (k : Nat) (f : Reception → Reception) : (s.updRec k f).minuteEvents = s.minuteEvents := rfl
@[simp] theorem State.updRec_image (k : Nat) (f : Reception → Reception) : (s.updRec k f).image = s.image := rfl
@[simp] theorem State.updRec_writer (k : Nat) (f : Reception → Reception) : (s.updRec k f).writer = s.writer := rfl
@[simp] theorem State.updRec_lines (k : Nat) (f : Reception → Reception) : (s.updRec k f).lines = s.lines := rfl
@[simp] theorem State.updRec_pending (k : Nat) (f : Reception → Reception) : (s.updRec k f).pending = s.pending := rfl
@[simp] theorem State.updRec_chan (k : Nat) (f : Reception → Reception) (ch : Chan) : (s.updRec k f).chan ch = s.chan ch := rfl
@[simp] theorem State.updRec_line (k : Nat) (f : Reception → Reception) (l : LineId) : (s.updRec k f).line l = s.line l := rfl
@[simp] theorem State.updRec_sheet (k : Nat) (f : Reception → Reception) (j : Nat) : (s.updRec k f).sheet j = s.sheet j := rfl

/-! ### updEntry -/

@[simp] theorem State.updEntry_powered (i : Nat) (f : SchedEntry → SchedEntry) : (s.updEntry i f).powered = s.powered := rfl
@[simp] theorem State.updEntry_resetInput (i : Nat) (f : SchedEntry → SchedEntry) : (s.updEntry i f).resetInput = s.resetInput := rfl
@[simp] theorem State.updEntry_resetDue (i : Nat) (f : SchedEntry → SchedEntry) : (s.updEntry i f).resetDue = s.resetDue := rfl
@[simp] theorem State.updEntry_sysReset (i : Nat) (f : SchedEntry → SchedEntry) : (s.updEntry i f).sysReset = s.sysReset := rfl
@[simp] theorem State.updEntry_inReset (i : Nat) (f : SchedEntry → SchedEntry) : (s.updEntry i f).inReset = s.inReset := rfl
@[simp] theorem State.updEntry_clock (i : Nat) (f : SchedEntry → SchedEntry) : (s.updEntry i f).clock = s.clock := rfl
@[simp] theorem State.updEntry_chans (i : Nat) (f : SchedEntry → SchedEntry) : (s.updEntry i f).chans = s.chans := rfl
@[simp] theorem State.updEntry_pool (i : Nat) (f : SchedEntry → SchedEntry) : (s.updEntry i f).pool = s.pool := rfl
@[simp] theorem State.updEntry_hand (i : Nat) (f : SchedEntry → SchedEntry) : (s.updEntry i f).hand = s.hand := rfl
@[simp] theorem State.updEntry_dir (i : Nat) (f : SchedEntry → SchedEntry) : (s.updEntry i f).dir = s.dir := rfl
@[simp] theorem State.updEntry_freeBands (i : Nat) (f : SchedEntry → SchedEntry) : (s.updEntry i f).freeBands = s.freeBands := rfl
@[simp] theorem State.updEntry_mem (i : Nat) (f : SchedEntry → SchedEntry) : (s.updEntry i f).mem = s.mem := rfl
@[simp] theorem State.updEntry_latest (i : Nat) (f : SchedEntry → SchedEntry) : (s.updEntry i f).latest = s.latest := rfl
@[simp] theorem State.updEntry_unbinds (i : Nat) (f : SchedEntry → SchedEntry) : (s.updEntry i f).unbinds = s.unbinds := rfl
@[simp] theorem State.updEntry_storedNotices (i : Nat) (f : SchedEntry → SchedEntry) : (s.updEntry i f).storedNotices = s.storedNotices := rfl
@[simp] theorem State.updEntry_notStoredNotices (i : Nat) (f : SchedEntry → SchedEntry) : (s.updEntry i f).notStoredNotices = s.notStoredNotices := rfl
@[simp] theorem State.updEntry_recs (i : Nat) (f : SchedEntry → SchedEntry) : (s.updEntry i f).recs = s.recs := rfl
@[simp] theorem State.updEntry_lastNumber (i : Nat) (f : SchedEntry → SchedEntry) : (s.updEntry i f).lastNumber = s.lastNumber := rfl
@[simp] theorem State.updEntry_sched (i : Nat) (f : SchedEntry → SchedEntry) : (s.updEntry i f).sched = s.sched.map (fun e => if e.id = i then f e else e) := rfl
@[simp] theorem State.updEntry_schedRun (i : Nat) (f : SchedEntry → SchedEntry) : (s.updEntry i f).schedRun = s.schedRun := rfl
@[simp] theorem State.updEntry_tod (i : Nat) (f : SchedEntry → SchedEntry) : (s.updEntry i f).tod = s.tod := rfl
@[simp] theorem State.updEntry_runSeconds (i : Nat) (f : SchedEntry → SchedEntry) : (s.updEntry i f).runSeconds = s.runSeconds := rfl
@[simp] theorem State.updEntry_minuteEvents (i : Nat) (f : SchedEntry → SchedEntry) : (s.updEntry i f).minuteEvents = s.minuteEvents := rfl
@[simp] theorem State.updEntry_image (i : Nat) (f : SchedEntry → SchedEntry) : (s.updEntry i f).image = s.image := rfl
@[simp] theorem State.updEntry_writer (i : Nat) (f : SchedEntry → SchedEntry) : (s.updEntry i f).writer = s.writer := rfl
@[simp] theorem State.updEntry_lines (i : Nat) (f : SchedEntry → SchedEntry) : (s.updEntry i f).lines = s.lines := rfl
@[simp] theorem State.updEntry_pending (i : Nat) (f : SchedEntry → SchedEntry) : (s.updEntry i f).pending = s.pending := rfl
@[simp] theorem State.updEntry_chan (i : Nat) (f : SchedEntry → SchedEntry) (ch : Chan) : (s.updEntry i f).chan ch = s.chan ch := rfl
@[simp] theorem State.updEntry_line (i : Nat) (f : SchedEntry → SchedEntry) (l : LineId) : (s.updEntry i f).line l = s.line l := rfl
@[simp] theorem State.updEntry_sheet (i : Nat) (f : SchedEntry → SchedEntry) (j : Nat) : (s.updEntry i f).sheet j = s.sheet j := rfl
@[simp] theorem State.updEntry_reception (i : Nat) (f : SchedEntry → SchedEntry) (j : Nat) : (s.updEntry i f).reception j = s.reception j := rfl

/-! ### noteStored -/

@[simp] theorem State.noteStored_powered (n : Nat) : (s.noteStored n).powered = s.powered := rfl
@[simp] theorem State.noteStored_resetInput (n : Nat) : (s.noteStored n).resetInput = s.resetInput := rfl
@[simp] theorem State.noteStored_resetDue (n : Nat) : (s.noteStored n).resetDue = s.resetDue := rfl
@[simp] theorem State.noteStored_sysReset (n : Nat) : (s.noteStored n).sysReset = s.sysReset := rfl
@[simp] theorem State.noteStored_inReset (n : Nat) : (s.noteStored n).inReset = s.inReset := rfl
@[simp] theorem State.noteStored_clock (n : Nat) : (s.noteStored n).clock = s.clock := rfl
@[simp] theorem State.noteStored_chans (n : Nat) : (s.noteStored n).chans = s.chans := rfl
@[simp] theorem State.noteStored_pool (n : Nat) : (s.noteStored n).pool = s.pool := rfl
@[simp] theorem State.noteStored_hand (n : Nat) : (s.noteStored n).hand = s.hand := rfl
@[simp] theorem State.noteStored_dir (n : Nat) : (s.noteStored n).dir = s.dir := rfl
@[simp] theorem State.noteStored_freeBands (n : Nat) : (s.noteStored n).freeBands = s.freeBands := rfl
@[simp] theorem State.noteStored_mem (n : Nat) : (s.noteStored n).mem = s.mem := rfl
@[simp] theorem State.noteStored_latest (n : Nat) : (s.noteStored n).latest = s.latest := rfl
@[simp] theorem State.noteStored_unbinds (n : Nat) : (s.noteStored n).unbinds = s.unbinds := rfl
@[simp] theorem State.noteStored_storedNotices (n : Nat) : (s.noteStored n).storedNotices = s.storedNotices ++ [n] := rfl
@[simp] theorem State.noteStored_notStoredNotices (n : Nat) : (s.noteStored n).notStoredNotices = s.notStoredNotices := rfl
@[simp] theorem State.noteStored_recs (n : Nat) : (s.noteStored n).recs = s.recs := rfl
@[simp] theorem State.noteStored_lastNumber (n : Nat) : (s.noteStored n).lastNumber = s.lastNumber := rfl
@[simp] theorem State.noteStored_sched (n : Nat) : (s.noteStored n).sched = s.sched := rfl
@[simp] theorem State.noteStored_schedRun (n : Nat) : (s.noteStored n).schedRun = s.schedRun := rfl
@[simp] theorem State.noteStored_tod (n : Nat) : (s.noteStored n).tod = s.tod := rfl
@[simp] theorem State.noteStored_runSeconds (n : Nat) : (s.noteStored n).runSeconds = s.runSeconds := rfl
@[simp] theorem State.noteStored_minuteEvents (n : Nat) : (s.noteStored n).minuteEvents = s.minuteEvents := rfl
@[simp] theorem State.noteStored_image (n : Nat) : (s.noteStored n).image = s.image := rfl
@[simp] theorem State.noteStored_writer (n : Nat) : (s.noteStored n).writer = s.writer := rfl
@[simp] theorem State.noteStored_lines (n : Nat) : (s.noteStored n).lines = s.lines := rfl
@[simp] theorem State.noteStored_pending (n : Nat) : (s.noteStored n).pending = s.pending := rfl
@[simp] theorem State.noteStored_chan (n : Nat) (ch : Chan) : (s.noteStored n).chan ch = s.chan ch := rfl
@[simp] theorem State.noteStored_line (n : Nat) (l : LineId) : (s.noteStored n).line l = s.line l := rfl
@[simp] theorem State.noteStored_sheet (n : Nat) (j : Nat) : (s.noteStored n).sheet j = s.sheet j := rfl
@[simp] theorem State.noteStored_reception (n : Nat) (j : Nat) : (s.noteStored n).reception j = s.reception j := rfl

/-! ### noteNotStored -/

@[simp] theorem State.noteNotStored_powered (n : Nat) : (s.noteNotStored n).powered = s.powered := rfl
@[simp] theorem State.noteNotStored_resetInput (n : Nat) : (s.noteNotStored n).resetInput = s.resetInput := rfl
@[simp] theorem State.noteNotStored_resetDue (n : Nat) : (s.noteNotStored n).resetDue = s.resetDue := rfl
@[simp] theorem State.noteNotStored_sysReset (n : Nat) : (s.noteNotStored n).sysReset = s.sysReset := rfl
@[simp] theorem State.noteNotStored_inReset (n : Nat) : (s.noteNotStored n).inReset = s.inReset := rfl
@[simp] theorem State.noteNotStored_clock (n : Nat) : (s.noteNotStored n).clock = s.clock := rfl
@[simp] theorem State.noteNotStored_chans (n : Nat) : (s.noteNotStored n).chans = s.chans := rfl
@[simp] theorem State.noteNotStored_pool (n : Nat) : (s.noteNotStored n).pool = s.pool := rfl
@[simp] theorem State.noteNotStored_hand (n : Nat) : (s.noteNotStored n).hand = s.hand := rfl
@[simp] theorem State.noteNotStored_dir (n : Nat) : (s.noteNotStored n).dir = s.dir := rfl
@[simp] theorem State.noteNotStored_freeBands (n : Nat) : (s.noteNotStored n).freeBands = s.freeBands := rfl
@[simp] theorem State.noteNotStored_mem (n : Nat) : (s.noteNotStored n).mem = s.mem := rfl
@[simp] theorem State.noteNotStored_latest (n : Nat) : (s.noteNotStored n).latest = s.latest := rfl
@[simp] theorem State.noteNotStored_unbinds (n : Nat) : (s.noteNotStored n).unbinds = s.unbinds := rfl
@[simp] theorem State.noteNotStored_storedNotices (n : Nat) : (s.noteNotStored n).storedNotices = s.storedNotices := rfl
@[simp] theorem State.noteNotStored_notStoredNotices (n : Nat) : (s.noteNotStored n).notStoredNotices = s.notStoredNotices ++ [n] := rfl
@[simp] theorem State.noteNotStored_recs (n : Nat) : (s.noteNotStored n).recs = s.recs := rfl
@[simp] theorem State.noteNotStored_lastNumber (n : Nat) : (s.noteNotStored n).lastNumber = s.lastNumber := rfl
@[simp] theorem State.noteNotStored_sched (n : Nat) : (s.noteNotStored n).sched = s.sched := rfl
@[simp] theorem State.noteNotStored_schedRun (n : Nat) : (s.noteNotStored n).schedRun = s.schedRun := rfl
@[simp] theorem State.noteNotStored_tod (n : Nat) : (s.noteNotStored n).tod = s.tod := rfl
@[simp] theorem State.noteNotStored_runSeconds (n : Nat) : (s.noteNotStored n).runSeconds = s.runSeconds := rfl
@[simp] theorem State.noteNotStored_minuteEvents (n : Nat) : (s.noteNotStored n).minuteEvents = s.minuteEvents := rfl
@[simp] theorem State.noteNotStored_image (n : Nat) : (s.noteNotStored n).image = s.image := rfl
@[simp] theorem State.noteNotStored_writer (n : Nat) : (s.noteNotStored n).writer = s.writer := rfl
@[simp] theorem State.noteNotStored_lines (n : Nat) : (s.noteNotStored n).lines = s.lines := rfl
@[simp] theorem State.noteNotStored_pending (n : Nat) : (s.noteNotStored n).pending = s.pending := rfl
@[simp] theorem State.noteNotStored_chan (n : Nat) (ch : Chan) : (s.noteNotStored n).chan ch = s.chan ch := rfl
@[simp] theorem State.noteNotStored_line (n : Nat) (l : LineId) : (s.noteNotStored n).line l = s.line l := rfl
@[simp] theorem State.noteNotStored_sheet (n : Nat) (j : Nat) : (s.noteNotStored n).sheet j = s.sheet j := rfl
@[simp] theorem State.noteNotStored_reception (n : Nat) (j : Nat) : (s.noteNotStored n).reception j = s.reception j := rfl

/-! ### Updates of a line that have a name -/

theorem State.sendText_eq (l : LineId) (t : Text) :
    s.sendText l t = s.updLine l fun x => { x with tx := x.tx.send (t ++ crlf) } := rfl

theorem State.flushTx_eq (l : LineId) : s.flushTx l = s.updLine l fun x => { x with tx := x.tx.flush } := rfl

theorem State.setInterp_eq (l : LineId) (i : Interp) : s.setInterp l i = s.updLine l fun x => { x with interp := i } := rfl

theorem State.raise_eq (l : LineId) (f : Flag) : s.raise l f = s.updLine l (Line.raise f) := rfl

theorem State.raiseAll_eq (f : Flag) : s.raiseAll f = s.mapLines (Line.raise f) := rfl

theorem State.notify_eq (k : NoticeKind) (name : Text) (chart : Nat) :
    s.notify k name chart = s.mapLines fun x => { x with notices := x.notices ++ [⟨k, name, chart⟩] } := rfl

/-! ### Sheets and receptions after an update -/

theorem State.sheet_updSheet (i j : Nat) (f : Sheet → Sheet) :
    (s.updSheet i f).sheet j = if i = j then (s.sheet j).map f else s.sheet j := by
  unfold State.sheet State.updSheet
  by_cases h : i = j
  · subst h
    cases hd : s.dir[i]? <;> simp [hd]
  · simp [h]

theorem State.sheet_set_none (i j : Nat) :
    ({ s with dir := s.dir.set i none } : State).sheet j = if i = j then none else s.sheet j := by
  unfold State.sheet
  by_cases h : i = j
  · subst h
    simp only [List.getElem?_set_self', if_true]
    cases s.dir[i]? <;> rfl
  · simp [h]

theorem State.sheet_setSheet (i j : Nat) (sh : Sheet) (hi : i < s.dir.length) :
    (s.setSheet i sh).sheet j = if i = j then some sh else s.sheet j := by
  unfold State.sheet State.setSheet
  by_cases h : i = j
  · subst h; simp [hi]
  · simp [h]

theorem State.reception_updRec (k j : Nat) (f : Reception → Reception) :
    (s.updRec k f).reception j = if k = j then (s.reception j).map f else s.reception j := by
  unfold State.reception State.updRec
  by_cases h : k = j
  · subst h
    cases hd : s.recs[k]? <;> simp [hd]
  · simp [h]

end Machine

end Sys2Proof
end

