-- ==== Sys2Proof/Laws/Commands.lean ====
section
/-! SUPPORT. What taking and answering a command can do: one lemma per shared operation of Machine/Command.lean, and a
transmitter's output. -/

namespace Sys2Proof.Machine

variable (s : State)

/-! ### Lines -/

/-- Two changes that agree on the line itself give the same state. -/
theorem State.updLine_congr {l : LineId} {f g : Line → Line} (h : f (s.line l) = g (s.line l)) :
    s.updLine l f = s.updLine l g := by
  cases l <;> simp only [State.line, Triple.get] at h <;> simp only [State.updLine, Triple.upd, h]

/-- A change that keeps the line keeps the state. -/
theorem State.updLine_self {l : LineId} {f : Line → Line} (h : f (s.line l) = s.line l) : s.updLine l f = s := by
  rw [s.updLine_congr (g := id) h]
  cases l <;> rfl

/-- A line after a change of a line, whichever it is. -/
theorem State.line_updLine (l k : LineId) (f : Line → Line) :
    (s.updLine l f).line k = if k = l then f (s.line k) else s.line k := by
  split
  · subst k; exact s.line_updLine_self l f
  · exact s.line_updLine_ne f ‹_›

/-- A channel after a change of a channel, whichever it is. -/
theorem State.chan_updChan (ch d : Chan) (f : Channel → Channel) :
    (s.updChan ch f).chan d = if d = ch then f (s.chan d) else s.chan d := by
  split
  · subst d; exact s.chan_updChan_self ch f
  · exact s.chan_updChan_ne f ‹_›

theorem State.updChan_updChan (ch : Chan) (f g : Channel → Channel) :
    (s.updChan ch f).updChan ch g = s.updChan ch (fun x => g (f x)) := by
  cases ch <;> rfl

/-! ### Power -/

@[simp] theorem State.live_of_powered (f : State → State) (h : s.powered = true) : s.live f = f s := if_pos h

theorem State.live_of_off (f : State → State) (h : s.powered = false) : s.live f = s := by
  simp [State.live, h]

theorem State.live_cases (f : State → State) : s.live f = s ∨ s.powered = true ∧ s.live f = f s := by
  cases h : s.powered
  · exact .inl (s.live_of_off f h)
  · exact .inr ⟨rfl, s.live_of_powered f h⟩

theorem State.listening_iff : s.listening = true ↔ s.awake := by
  simp [State.listening, State.awake]

/-! ### Taking a command -/

/-- The part takes a command exactly when the first command not yet taken of an EXECUTING interpreter is judged to be it. -/
theorem State.offers_iff (l : LineId) (k : Keyword) (args : List Text) :
    s.offers l (.known k args) = true ↔ ∃ h, s.takes l k args h := by
  unfold State.offers State.takes Line.nextCommand
  rw [Bool.and_eq_true, s.listening_iff]
  constructor
  · rintro ⟨awake, h⟩
    split at h
    · rename_i t ht
      split at ht
      · rename_i hand hi
        exact ⟨hand, awake, hi, t, ht, by simpa using h⟩
      · cases ht
    · cases h
  · rintro ⟨hand, awake, hi, t, ht, hp⟩
    exact ⟨awake, by simp [hi, ht, hp]⟩

/-- Everything that taking the next command does: nothing, or the meaning's effect on the state in which it is taken, and
its answer. -/
theorem State.takeNext_of_executing {l : LineId} {h : InHand} (body : State → State × Answer)
    (hi : (s.line l).interp = .executing h) :
    s.takeNext l body = (body (s.ready l h)).1.answer l (body (s.ready l h)).2 h.advance := by
  simp [State.takeNext, hi, State.ready]

/-- A command that is taken has its effect on the state in which it is taken, and is answered. -/
theorem State.command_of_takes {l : LineId} {k : Keyword} {args : List Text} {h : InHand}
    (body : State → State × Answer) (ht : s.takes l k args h) :
    s.command l k args body = (body (s.ready l h)).1.answer l (body (s.ready l h)).2 h.advance := by
  unfold State.command
  rw [if_pos ((s.offers_iff l k args).2 ⟨h, ht⟩)]
  exact s.takeNext_of_executing body ht.2.1

/-- Everything a text command can do: nothing, or what it does when it is taken. -/
theorem State.command_cases (l : LineId) (k : Keyword) (args : List Text) (body : State → State × Answer) :
    s.command l k args body = s ∨ ∃ h, s.takes l k args h ∧
      s.command l k args body = (body (s.ready l h)).1.answer l (body (s.ready l h)).2 h.advance := by
  by_cases ho : s.offers l (.known k args) = true
  · obtain ⟨h, ht⟩ := (s.offers_iff l k args).1 ho
    exact .inr ⟨h, ht, s.command_of_takes body ht⟩
  · exact .inl (if_neg ho)

/-- Behind another command of its line, the state in which a command is taken differs in the transmitter only. -/
theorem State.ready_eq (l : LineId) (h : InHand) :
    s.ready l h = s.updLine l fun x => { x with tx := if h.taken = 0 then x.tx else x.tx.flush } := by
  unfold State.ready
  split
  · exact (s.updLine_self rfl).symm
  · rfl

@[simp] theorem State.ready_sheet (l : LineId) (h : InHand) (i : Nat) : (s.ready l h).sheet i = s.sheet i := by
  rw [s.ready_eq]; rfl

@[simp] theorem State.ready_reception (l : LineId) (h : InHand) (k : Nat) : (s.ready l h).reception k = s.reception k := by
  rw [s.ready_eq]; rfl

@[simp] theorem State.ready_chan (l : LineId) (h : InHand) (ch : Chan) : (s.ready l h).chan ch = s.chan ch := by
  rw [s.ready_eq]; rfl

/-- The state in which a command is taken has the fields of the state before, but for the lines. -/
theorem State.ready_fields (l : LineId) (h : InHand) : s.ready l h = { s with lines := (s.ready l h).lines } := by
  rw [s.ready_eq]; rfl

/-! ### Answering -/

/-- Everything an answer can do: it changes the transmitter and the interpreter of its line. -/
theorem State.answer_eq (l : LineId) (a : Answer) (h : InHand) :
    ∃ (sent : Tx → Tx) (i : Interp), s.answer l a h = s.updLine l fun x => { x with tx := sent x.tx, interp := i } := by
  cases a with
  | ok => exact ⟨Tx.send (ascii "OK" ++ crlf), h.goOn, s.updLine_updLine _ _ _⟩
  | values v => exact ⟨Tx.send (ascii "=" ++ v ++ crlf), h.goOn, s.updLine_updLine _ _ _⟩
  | error e => exact ⟨Tx.send (errorText e h.taken ++ crlf), .ready, s.updLine_updLine _ _ _⟩
  | hold => exact ⟨id, .held h, rfl⟩
  | okHold => exact ⟨Tx.send (ascii "OK" ++ crlf), .held h, s.updLine_updLine _ _ _⟩
  | stopping n => exact ⟨id, .stopping n h, rfl⟩

/-- An answer leaves every field but the lines. -/
theorem State.answer_fields (l : LineId) (a : Answer) (h : InHand) :
    s.answer l a h = { s with lines := (s.answer l a h).lines } := by
  obtain ⟨sent, i, e⟩ := s.answer_eq l a h
  rw [e]; rfl

/-- An answer leaves every other line. -/
theorem State.answer_line_ne {l k : LineId} (a : Answer) (h : InHand) (hk : k ≠ l) :
    (s.answer l a h).line k = s.line k := by
  obtain ⟨sent, i, e⟩ := s.answer_eq l a h
  rw [e]; exact s.line_updLine_ne _ hk

/-- After the last command of its line an interpreter is READY, otherwise EXECUTING. -/
theorem InHand.goOn_eq (h : InHand) : h.goOn = if h.todo = [] then .ready else .executing h := by
  unfold InHand.goOn
  split <;> simp_all

@[simp] theorem InHand.advance_todo (h : InHand) : h.advance.todo = h.todo.tail := rfl

@[simp] theorem InHand.advance_taken (h : InHand) : h.advance.taken = h.taken + 1 := rfl

/-! ### The transmitter -/

/-- All a transmitter has to send, behind what it has sent: `send` appends to it. -/
theorem Tx.send_all (item : Text) (x : Tx) :
    (x.send item).wire ++ (x.send item).now ++ (x.send item).waiting.flatten =
      x.wire ++ x.now ++ x.waiting.flatten ++ item := by
  unfold Tx.send
  split <;> simp_all [List.append_assoc]

/-- `flush` sends all of it. -/
theorem Tx.flush_all (x : Tx) : x.flush = ⟨[], [], x.wire ++ x.now ++ x.waiting.flatten⟩ := rfl

/-- A flush behind a send puts the item on the wire behind all there was to send. -/
theorem Tx.flush_send (item : Text) (x : Tx) :
    (x.send item).flush = ⟨[], [], x.wire ++ x.now ++ x.waiting.flatten ++ item⟩ := by
  rw [Tx.flush_all, Tx.send_all]

/-- An item sent on an idle transmitter is the one being sent. -/
theorem Tx.send_flush (item : Text) (x : Tx) : x.flush.send item = ⟨item, [], x.flush.wire⟩ := rfl

end Sys2Proof.Machine
end

