-- ==== Sys2Proof/Laws/Channels.lean ====
section
/-! SUPPORT. The shared operations of a receive channel: for each, everything it can do. -/

namespace Sys2Proof.Machine

variable (c : Channel)

/-! ### Small updates -/

@[simp] theorem Channel.setMember_member (m : Membership) : (c.setMember m).member = some m := rfl
@[simp] theorem Channel.setMember_cfg (m : Membership) : (c.setMember m).cfg = c.cfg := rfl
@[simp] theorem Channel.setMember_tune (m : Membership) : (c.setMember m).tune = c.tune := rfl
@[simp] theorem Channel.setMember_offers (m : Membership) : (c.setMember m).offers = c.offers := rfl
@[simp] theorem Channel.setMember_endNotices (m : Membership) : (c.setMember m).endNotices = c.endNotices := rfl
@[simp] theorem Channel.setMember_periodReports (m : Membership) : (c.setMember m).periodReports = c.periodReports := rfl
@[simp] theorem Channel.setMember_setMember (m n : Membership) : (c.setMember m).setMember n = c.setMember n := rfl
@[simp] theorem Channel.tellState_member (n : Nat) (x : Mirror) : (c.tellState n x).member = c.member := rfl
@[simp] theorem Channel.tellState_cfg (n : Nat) (x : Mirror) : (c.tellState n x).cfg = c.cfg := rfl
@[simp] theorem Channel.tellState_tune (n : Nat) (x : Mirror) : (c.tellState n x).tune = c.tune := rfl
@[simp] theorem Channel.tellState_offers (n : Nat) (x : Mirror) : (c.tellState n x).offers = c.offers := rfl
@[simp] theorem Channel.tellState_endNotices (n : Nat) (x : Mirror) : (c.tellState n x).endNotices = c.endNotices := rfl
@[simp] theorem Channel.join_cfg (n lpm w h li : Nat) (f : Option Nat) (next : Nat) :
    (c.join n lpm w h li f next).cfg = c.cfg := rfl
@[simp] theorem Channel.join_endNotices (n lpm w h li : Nat) (f : Option Nat) (next : Nat) :
    (c.join n lpm w h li f next).endNotices = c.endNotices := rfl
@[simp] theorem Membership.keep_fields (x : Sample) (next : Nat) (m : Membership) :
    m.keep x next = { m with kept := (m.keep x next).kept } := rfl

/-! ### The end of a membership -/

/-- Ending an IDLE channel does nothing. -/
@[simp] theorem Channel.endMember_of_none (cause : EndCause) (h : c.member = none) : c.endMember cause = c := by
  simp [Channel.endMember, h]

/-- Everything that the end of a membership does (R18). -/
theorem Channel.endMember_of_some (cause : EndCause) {m : Membership} (h : c.member = some m) :
    c.endMember cause =
      { c with
        member := none
        endNotices := c.endNotices ++ [⟨m.reception, cause, decide (m.phase = .imaging)⟩] } := by
  simp [Channel.endMember, h]

@[simp] theorem Channel.endMember_member (cause : EndCause) : (c.endMember cause).member = none := by
  cases h : c.member with
  | none => rw [c.endMember_of_none cause h]; exact h
  | some m => rw [c.endMember_of_some cause h]

@[simp] theorem Channel.endMember_cfg (cause : EndCause) : (c.endMember cause).cfg = c.cfg := by
  cases h : c.member with
  | none => rw [c.endMember_of_none cause h]
  | some m => rw [c.endMember_of_some cause h]

@[simp] theorem Channel.endMember_tune (cause : EndCause) : (c.endMember cause).tune = c.tune := by
  cases h : c.member with
  | none => rw [c.endMember_of_none cause h]
  | some m => rw [c.endMember_of_some cause h]

/-- An end order ends the membership it names, and nothing else (R18). -/
theorem Channel.obeyEnd_cases (o : EndOrder) :
    (c.obeyEnd o = c ∧ ∀ m, c.member = some m → m.reception ≠ o.reception) ∨
    ∃ m, c.member = some m ∧ m.reception = o.reception ∧ c.obeyEnd o = c.endMember o.cause := by
  unfold Channel.obeyEnd
  cases h : c.member with
  | none => exact .inl ⟨rfl, fun m hm => by cases hm⟩
  | some m =>
    by_cases hr : m.reception = o.reception
    · exact .inr ⟨m, rfl, hr, if_pos hr⟩
    · exact .inl ⟨if_neg hr, fun x hx => by cases hx; exact hr⟩

/-! ### Rows and reports -/

/-- Everything that the end of a row does (R14, R15): the record is offered, and the member goes on to the next row or its
membership ends FADED or FULL. -/
theorem Channel.endRow_cases (ch : Chan) (next peff : Nat) (m : Membership) :
    let after := m.rowStart + peff
    let carrier := hasCarrier c.cfg (m.sampleAt ch next) (m.rowStart / Config.fine) (after / Config.fine)
    let lost := if carrier then 0 else m.lost + 1
    let offered : Channel := { c with offers := c.offers ++ [formRecord ch c.cfg m peff (m.sampleAt ch next)] }
    (carrier = false ∧ c.cfg.lost ≤ lost ∧
      c.endRow ch next peff m = (offered.setMember { m with lost := lost }).endMember .faded) ∨
    ((carrier = true ∨ lost < c.cfg.lost) ∧ m.height ≤ m.row + 1 ∧
      c.endRow ch next peff m = (offered.setMember { m with lost := lost }).endMember .full) ∨
    ((carrier = true ∨ lost < c.cfg.lost) ∧ m.row + 1 < m.height ∧
      c.endRow ch next peff m = offered.setMember { m with lost := lost, row := m.row + 1, rowStart := after }) := by
  intro after carrier lost offered
  by_cases h1 : carrier = false ∧ c.cfg.lost ≤ lost
  · exact .inl ⟨h1.1, h1.2, if_pos h1⟩
  · have hc : carrier = true ∨ lost < c.cfg.lost := by
      cases hcar : carrier
      · exact .inr (Nat.lt_of_not_le fun hl => h1 ⟨hcar, hl⟩)
      · exact .inl rfl
    by_cases h2 : m.height ≤ m.row + 1
    · exact .inr (.inl ⟨hc, h2, (if_neg h1).trans (if_pos h2)⟩)
    · exact .inr (.inr ⟨hc, Nat.lt_of_not_le h2, (if_neg h1).trans (if_neg h2)⟩)

/-- Everything that a period report does to its channel (R12, R15): the report is sent, and the member goes on or, locked
and without carrier for the limit of periods, ends FADED. -/
theorem Channel.report_cases (ch : Chan) (next : Nat) (t : MemberTiming) (m : Membership) :
    let a := (t.ref + t.period * t.peff) / Config.fine
    let b := (t.ref + (t.period + 1) * t.peff) / Config.fine
    let tol := tolerance (nominalPeriod m.lpm)
    let carrier := hasCarrier c.cfg (m.sampleAt ch next) a b
    let lost := if m.phase = .locked then (if carrier then 0 else m.lost + 1) else m.lost
    let told : Channel := { c with
      periodReports := c.periodReports ++
        [⟨m.reception, t.period, m.markers.any fun e => decide (a ≤ e + tol) && decide (e ≤ a + tol), carrier,
          m.toneEnds.any fun w => decide (a ≤ w) && decide (w < b)⟩] }
    let m1 : Membership := { m with
      lost := lost, timing := some { t with period := t.period + 1 }
      markers := m.markers.filter fun e => decide (b ≤ e + tol)
      toneEnds := m.toneEnds.filter fun w => decide (b ≤ w) }
    (m.phase = .locked ∧ carrier = false ∧ c.cfg.lost ≤ lost ∧
      c.report ch next t m = (told.setMember m1).endMember .faded) ∨
    ((m.phase ≠ .locked ∨ carrier = true ∨ lost < c.cfg.lost) ∧ c.report ch next t m = told.setMember m1) := by
  intro a b tol carrier lost told m1
  by_cases h : m.phase = .locked ∧ carrier = false ∧ c.cfg.lost ≤ lost
  · exact .inl ⟨h.1, h.2.1, h.2.2, if_pos h⟩
  · refine .inr ⟨?_, if_neg h⟩
    by_cases hp : m.phase = .locked
    · cases hc : carrier
      · exact .inr (.inr (Nat.lt_of_not_le fun hl => h ⟨hp, hc, hl⟩))
      · exact .inr (.inl rfl)
    · exact .inl hp

/-- Everything that the sample clock's reaching a sample does to a channel: nothing, the end of its row, or a report. -/
theorem Channel.reach_cases (ch : Chan) (next : Nat) :
    c.reach ch next = c ∨
    ∃ m t, c.member = some m ∧ m.timing = some t ∧
      ((m.phase = .imaging ∧ m.rowStart + t.peff ≤ next * Config.fine ∧ c.reach ch next = c.endRow ch next t.peff m) ∨
        (m.phase ≠ .imaging ∧ t.ref + (t.period + 1) * t.peff ≤ next * Config.fine ∧
          c.reach ch next = c.report ch next t m)) := by
  unfold Channel.reach
  cases hm : c.member with
  | none => exact .inl rfl
  | some m =>
    cases ht : m.timing with
    | none => exact .inl (by simp [ht])
    | some t =>
      by_cases hp : m.phase = .imaging
      · by_cases hd : m.rowStart + t.peff ≤ next * Config.fine
        · exact .inr ⟨m, t, rfl, ht, .inl ⟨hp, hd, by simp [ht, hp, hd]⟩⟩
        · exact .inl (by simp [ht, hp, hd])
      · by_cases hd : t.ref + (t.period + 1) * t.peff ≤ next * Config.fine
        · exact .inr ⟨m, t, rfl, ht, .inr ⟨hp, hd, by simp [ht, hp, hd]⟩⟩
        · exact .inl (by simp [ht, hp, hd])

/-- Everything that a marker does to its channel (R5, R9 to R11). -/
theorem Channel.onMarker_cases (e : Nat) :
    c.onMarker e = c ∨
    ∃ m, c.member = some m ∧
      ((m.timing.isSome ∧ m.phase ≠ .imaging ∧ c.onMarker e = c.setMember { m with markers := e :: m.markers }) ∨
        (m.timing = none ∧ m.phase = .listening ∧
          c.onMarker e = (c.setMember { m with phase := .collecting, run := [e] }).tellState m.reception .phasing) ∨
        (m.timing = none ∧ m.phase = .collecting ∧
          ((c.cfg.lock ≤ (extendRun (nominalPeriod m.lpm) m.run e).length ∧
              c.onMarker e = c.lockMember m (extendRun (nominalPeriod m.lpm) m.run e)) ∨
            ((extendRun (nominalPeriod m.lpm) m.run e).length < c.cfg.lock ∧
              c.onMarker e = c.setMember { m with run := extendRun (nominalPeriod m.lpm) m.run e })))) := by
  unfold Channel.onMarker
  cases hm : c.member with
  | none => exact .inl rfl
  | some m =>
    cases ht : m.timing with
    | some t =>
      by_cases hp : m.phase = .imaging
      · exact .inl (by simp [ht, hp])
      · exact .inr ⟨m, rfl, .inl ⟨by simp [ht], hp, by simp [ht, hp]⟩⟩
    | none =>
      cases hp : m.phase with
      | listening => exact .inr ⟨m, rfl, .inr (.inl ⟨ht, hp, by simp [ht, hp]⟩)⟩
      | collecting =>
        refine .inr ⟨m, rfl, .inr (.inr ⟨ht, hp, ?_⟩)⟩
        by_cases hl : c.cfg.lock ≤ (extendRun (nominalPeriod m.lpm) m.run e).length
        · exact .inl ⟨hl, by simp [ht, hp, hl]⟩
        · exact .inr ⟨Nat.lt_of_not_le hl, by simp [ht, hp, hl]⟩
      | locked => exact .inl (by simp [ht, hp])
      | imaging => exact .inl (by simp [ht, hp])

/-- A marker never empties a run. -/
theorem extendRun_ne_nil (p : Nat) (run : List Nat) (e : Nat) : extendRun p run e ≠ [] := by
  unfold extendRun
  split
  · simp
  · split <;> simp

/-- Everything that one sample does to a channel: it is kept, judged and counted; the marker it ends acts; then the closing
pattern ends the membership, or the opening pattern restarts the listen timer, and the clock moves on. -/
theorem Channel.hearSample_cases (ch : Chan) (idx : Nat) (x : Sample) :
    (c.member = none ∧ c.hearSample ch idx x = c) ∨
    ∃ m m1, c.member = some m ∧ m1 = { m with kept := m1.kept, det := m1.det, toneEnds := m1.toneEnds } ∧
      ∃ c2, (c2 = c.setMember m1 ∨ ∃ e, c2 = (c.setMember m1).onMarker e) ∧
        (c.hearSample ch idx x = c2.endMember .closed ∨
          c.hearSample ch idx x = (c2.onOpening (idx + 1)).reach ch (idx + 1) ∨
          c.hearSample ch idx x = c2.reach ch (idx + 1)) := by
  cases hm : c.member with
  | none => exact .inl ⟨rfl, by simp [Channel.hearSample, hm]⟩
  | some m =>
    let t := judgeTone c.cfg x.freq
    let d := m.det.hear idx t x.env
    let ends := m.det.windowEnds idx
    let q := if ends then windowPattern c.cfg.squelch d.changes d.windowSum else none
    let heard := if ends then d.heard q else none
    let m1 := { m.keep x (idx + 1) with
      det := if ends then d.countWindow q else d
      toneEnds := if q = none then m.toneEnds else idx :: m.toneEnds }
    let c2 := match m.det.markerAt (nominalPeriod m.lpm) idx t with
      | some e => (c.setMember m1).onMarker e
      | none => c.setMember m1
    have he : c.hearSample ch idx x =
        match heard with
        | some .closing => c2.endMember .closed
        | some .opening => (c2.onOpening (idx + 1)).reach ch (idx + 1)
        | none => c2.reach ch (idx + 1) := by
      simp only [Channel.hearSample, hm]
      rfl
    refine .inr ⟨m, m1, rfl, rfl, c2, ?_, ?_⟩
    · cases hk : m.det.markerAt (nominalPeriod m.lpm) idx t with
      | none => exact .inl (by simp only [c2, hk])
      | some e => exact .inr ⟨e, by simp only [c2, hk]⟩
    · rw [he]
      cases heard with
      | none => exact .inr (.inr rfl)
      | some p =>
        cases p
        · exact .inr (.inl rfl)
        · exact .inl rfl

end Sys2Proof.Machine
end

