-- ==== Sys2Proof/Laws/Memory.lean ====
section
/-! SUPPORT. The memory of the band pool: every operation keeps its canonical form, and what one byte reads as after
each. -/

namespace Sys2Proof.Machine

/-! ### The cells of a run of bytes -/

theorem Memory.cells_address (bs : List Byte) (a : Nat) :
    ∀ c ∈ Memory.cells a bs, a ≤ c.1 ∧ c.1 < a + bs.length ∧ c.2 ≠ Memory.blank := by
  induction bs generalizing a with
  | nil => intro c hc; cases hc
  | cons b bs ih =>
    intro c hc
    unfold Memory.cells at hc
    split at hc
    · obtain ⟨h1, h2, h3⟩ := ih (a + 1) c hc
      exact ⟨by omega, by simp only [List.length_cons]; omega, h3⟩
    · rename_i hb
      rcases List.mem_cons.1 hc with rfl | hc
      · exact ⟨Nat.le_refl _, by simp, hb⟩
      · obtain ⟨h1, h2, h3⟩ := ih (a + 1) c hc
        exact ⟨by omega, by simp only [List.length_cons]; omega, h3⟩

theorem Memory.cells_rising (bs : List Byte) (a : Nat) :
    List.Pairwise (fun x y : Host.Cell => x.1 < y.1) (Memory.cells a bs) := by
  induction bs generalizing a with
  | nil => exact List.Pairwise.nil
  | cons b bs ih =>
    unfold Memory.cells
    split
    · exact ih (a + 1)
    · refine List.pairwise_cons.2 ⟨fun c hc => ?_, ih (a + 1)⟩
      exact (Memory.cells_address bs (a + 1) c hc).1

/-! ### The canonical form is kept -/

theorem Memory.wf_nil : Memory.wf [] := ⟨List.Pairwise.nil, fun _ h => absurd h List.not_mem_nil⟩

theorem Memory.wf_filter {m : Memory} (h : Memory.wf m) (p : Host.Cell → Bool) : Memory.wf (m.filter p) :=
  ⟨h.1.filter p, fun c hc => h.2 c (List.mem_filter.1 hc).1⟩

/-- A write keeps the canonical form. -/
theorem Memory.wf_write {m : Memory} (h : Memory.wf m) (a : Nat) (bs : List Byte) : Memory.wf (m.write a bs) := by
  refine ⟨?_, ?_⟩
  · refine List.pairwise_append.2 ⟨List.pairwise_append.2 ⟨h.1.filter _, Memory.cells_rising bs a, ?_⟩, h.1.filter _, ?_⟩
    · intro x hx y hy
      have h1 := (List.mem_filter.1 hx).2
      have h2 := (Memory.cells_address bs a y hy).1
      simp only [decide_eq_true_eq] at h1
      omega
    · intro x hx y hy
      have h2 := (List.mem_filter.1 hy).2
      simp only [decide_eq_true_eq] at h2
      rcases List.mem_append.1 hx with hx | hx
      · have h1 := (List.mem_filter.1 hx).2
        simp only [decide_eq_true_eq] at h1
        omega
      · have h1 := (Memory.cells_address bs a x hx).2.1
        omega
  · intro c hc
    rcases List.mem_append.1 hc with hc | hc
    · rcases List.mem_append.1 hc with hc | hc
      · exact h.2 c (List.mem_filter.1 hc).1
      · exact (Memory.cells_address bs a c hc).2.2
    · exact h.2 c (List.mem_filter.1 hc).1

/-- Erasing bands keeps the canonical form. -/
theorem Memory.wf_eraseBands {m : Memory} (h : Memory.wf m) (bands : List Nat) : Memory.wf (m.eraseBands bands) :=
  Memory.wf_filter h _

/-- Writing the spans of a record keeps the canonical form. -/
theorem writeElements_wf (r : LineRecord) (band : Nat) (store : List Bool) (k : Nat) {m : Memory} (h : Memory.wf m) :
    Memory.wf (writeElements r band k store m) := by
  induction store generalizing k m with
  | nil => exact h
  | cons b rest ih =>
    cases b
    · exact ih (k + 1) h
    · exact ih (k + 1) (Memory.wf_write h _ _)

theorem State.reset_mem_wf : Memory.wf State.reset.mem := Memory.wf_nil

/-! ### Reading -/

/-- A byte reads as its cell does: the first cell of that address, or the blank byte where there is none. -/
theorem Memory.read_eq_find (m : Memory) (a : Nat) :
    m.read a = ((m.find? fun c => c.1 == a).map Prod.snd).getD Memory.blank := by
  induction m with
  | nil => rfl
  | cons c m ih =>
    obtain ⟨k, b⟩ := c
    by_cases h : k = a
    · simp [Memory.read, h]
    · simp [Memory.read, h, ih]

theorem Memory.read_append_of_absent {m m' : Memory} {a : Nat} (h : ∀ c ∈ m, c.1 ≠ a) :
    Memory.read (m ++ m') a = Memory.read m' a := by
  induction m with
  | nil => rfl
  | cons c m ih =>
    obtain ⟨k, b⟩ := c
    have hk : k ≠ a := h (k, b) (List.mem_cons_self ..)
    simp only [List.cons_append, Memory.read, if_neg hk]
    exact ih fun c hc => h c (List.mem_cons_of_mem _ hc)

theorem Memory.read_append_left {m m' : Memory} {a : Nat} (h : ∀ c ∈ m', c.1 ≠ a) :
    Memory.read (m ++ m') a = Memory.read m a := by
  induction m with
  | nil =>
    simpa using Memory.read_append_of_absent (m' := []) h
  | cons c m ih =>
    obtain ⟨k, b⟩ := c
    simp only [List.cons_append, Memory.read, ih]

theorem Memory.read_cells (bs : List Byte) (a i : Nat) (h : i < bs.length) :
    Memory.read (Memory.cells a bs) (a + i) = bs[i] := by
  induction bs generalizing a i with
  | nil => exact absurd h (by simp)
  | cons b bs ih =>
    cases i with
    | zero =>
      unfold Memory.cells
      split
      · rename_i hb
        have absent : ∀ c ∈ Memory.cells (a + 1) bs, c.1 ≠ a + 0 := fun c hc => by
          have := (Memory.cells_address bs (a + 1) c hc).1
          omega
        have := Memory.read_append_of_absent (m' := []) absent
        rw [List.append_nil] at this
        rw [this]
        simpa [Memory.read] using hb.symm
      · simp [Memory.read]
    | succ i =>
      have hi : i < bs.length := by simpa using h
      have step := ih (a + 1) i hi
      have ha : a + 1 + i = a + (i + 1) := by omega
      rw [ha] at step
      unfold Memory.cells
      split
      · simpa using step
      · have hne : a ≠ a + (i + 1) := by omega
        simp only [Memory.read, if_neg hne]
        simpa using step

theorem Memory.read_filter (m : Memory) (p : Host.Cell → Bool) (a : Nat) (h : ∀ b, p (a, b) = true) :
    Memory.read (m.filter p) a = m.read a := by
  induction m with
  | nil => rfl
  | cons c m ih =>
    obtain ⟨k, b⟩ := c
    by_cases hk : k = a
    · subst hk
      simp [h b, Memory.read]
    · cases hp : p (k, b) <;> simp [hp, Memory.read, hk, ih]

end Sys2Proof.Machine
end

