-- ==== Sys2Proof/Laws/Store.lean ====
section
/-! SUPPORT. The sheet store's shared operations: for each, everything it can do. -/

namespace Sys2Proof.Machine

variable (s : State)

/-! ### Lookup -/

theorem State.sheet_of_dir {i : Nat} {sh : Sheet} (h : s.sheet i = some sh) : s.dir[i]? = some (some sh) := by
  unfold State.sheet at h
  cases hd : s.dir[i]? with
  | none => rw [hd] at h; cases h
  | some e => rw [hd] at h; cases e <;> simp_all

/-- The entry found for a name holds a sheet of that name. -/
theorem State.findSheet_some {name : Text} {i : Nat} (h : s.findSheet name = some i) :
    ∃ sh, s.sheet i = some sh ∧ sh.name = name := by
  unfold State.findSheet at h
  obtain ⟨hi, hp, -⟩ := List.findIdx?_eq_some_iff_getElem.1 h
  cases hd : s.dir[i] with
  | none => rw [hd] at hp; cases hp
  | some sh =>
    rw [hd] at hp
    exact ⟨sh, by simp [State.sheet, List.getElem?_eq_getElem hi, hd], by simpa using hp⟩

/-- A name no sheet holds is found nowhere. -/
theorem State.findSheet_none {name : Text} (h : s.findSheet name = none) (i : Nat) (sh : Sheet)
    (hs : s.sheet i = some sh) : sh.name ≠ name := by
  intro hn
  have := List.findIdx?_eq_none_iff.1 h (some sh) (List.mem_of_getElem? (s.sheet_of_dir hs))
  simp [hn] at this

/-- The lowest FREE entry is a FREE entry of the directory, and every entry below it holds a sheet. -/
theorem State.freeEntry_some {i : Nat} (h : s.freeEntry = some i) :
    i < s.dir.length ∧ s.sheet i = none ∧ ∀ j, j < i → (s.sheet j).isSome := by
  unfold State.freeEntry at h
  obtain ⟨hi, hp, hlt⟩ := List.findIdx?_eq_some_iff_getElem.1 h
  refine ⟨hi, ?_, fun j hj => ?_⟩
  · unfold State.sheet
    rw [List.getElem?_eq_getElem hi]
    cases hd : s.dir[i] <;> simp_all
  · have hjl : j < s.dir.length := Nat.lt_trans hj hi
    have := hlt j hj
    unfold State.sheet
    rw [List.getElem?_eq_getElem hjl]
    cases hd : s.dir[j] <;> simp_all

/-! ### Freeing, readers, writers -/

/-- Freeing an entry that holds no sheet does nothing. -/
theorem State.freeSheet_of_none {i : Nat} (h : s.sheet i = none) : s.freeSheet i = s := by
  simp [State.freeSheet, h]

/-- Everything that freeing a sheet does (R84): the entry FREE, its bands back, its contents gone, the pointer and the
bindings of ENDED records that named it cleared, and a FREED notice to every line. -/
theorem State.freeSheet_of_some {i : Nat} {sh : Sheet} (h : s.sheet i = some sh) :
    s.freeSheet i =
      { s with
        dir := s.dir.set i none
        freeBands := returnBands sh.bands s.freeBands
        mem := s.mem.eraseBands sh.bands
        latest := if s.latest = some i then none else s.latest
        recs := s.recs.map (Option.map (Reception.unbindEnded i))
        lines := s.lines.mapAll fun x => { x with notices := x.notices ++ [⟨.freed, sh.name, sh.chart⟩] } } := by
  simp [State.freeSheet, h, State.notify, State.mapLines]

/-- The sheets after one is freed. -/
theorem State.sheet_freeSheet (i j : Nat) : (s.freeSheet i).sheet j = if i = j then none else s.sheet j := by
  cases h : s.sheet i with
  | none =>
    rw [s.freeSheet_of_none h]
    split
    · subst j; exact h
    · rfl
  | some sh => rw [s.freeSheet_of_some h]; exact s.sheet_set_none i j

/-- Freeing touches these fields and no other, and of a line its notices alone. -/
theorem State.freeSheet_fields (i : Nat) :
    s.freeSheet i =
      { s with
        dir := (s.freeSheet i).dir, freeBands := (s.freeSheet i).freeBands, mem := (s.freeSheet i).mem
        latest := (s.freeSheet i).latest, recs := (s.freeSheet i).recs, lines := (s.freeSheet i).lines } ∧
    ∀ l, (s.freeSheet i).line l = { s.line l with notices := ((s.freeSheet i).line l).notices } := by
  cases h : s.sheet i with
  | none => rw [s.freeSheet_of_none h]; exact ⟨rfl, fun _ => rfl⟩
  | some sh =>
    rw [s.freeSheet_of_some h]
    refine ⟨rfl, fun l => ?_⟩
    cases l <;> rfl

/-- Everything that a transfer's end does to its sheet (R81). -/
theorem State.dropReader_cases (i : Nat) :
    (s.sheet i = none ∧ s.dropReader i = s) ∨
    ∃ sh, s.sheet i = some sh ∧
      ((¬(sh.state = .retiring ∧ sh.readers ≤ 1) ∧
          s.dropReader i = s.updSheet i fun x => { x with readers := x.readers - 1 }) ∨
        (sh.state = .retiring ∧ sh.readers ≤ 1 ∧
          s.dropReader i = (s.updSheet i fun x => { x with readers := x.readers - 1 }).freeSheet i)) := by
  unfold State.dropReader
  split
  · exact .inl ⟨‹_›, rfl⟩
  · rename_i sh hs
    refine .inr ⟨sh, hs, ?_⟩
    by_cases hc : sh.state = .retiring ∧ sh.readers ≤ 1
    · exact .inr ⟨hc.1, hc.2, if_pos hc⟩
    · exact .inl ⟨hc, if_neg hc⟩

/-- Everything that leaving FILLING can be (R83). -/
theorem State.leaveFilling_cases {i : Nat} {sh : Sheet} (h : s.sheet i = some sh) :
    (0 < sh.filledRows ∧ s.leaveFilling i =
      (s.updSheet i fun x => { x with state := .complete, completedAt := some s.runSeconds }).notify
        .done sh.name sh.chart) ∨
    (sh.filledRows = 0 ∧ sh.origin = .defined ∧
      s.leaveFilling i = s.updSheet i fun x => { x with state := .defined }) ∨
    (sh.filledRows = 0 ∧ sh.origin = .received ∧ sh.readers = 0 ∧ s.leaveFilling i = s.freeSheet i) ∨
    (sh.filledRows = 0 ∧ sh.origin = .received ∧ sh.readers ≠ 0 ∧
      s.leaveFilling i = s.updSheet i fun x => { x with state := .retiring }) := by
  by_cases hf : 0 < sh.filledRows
  · exact .inl ⟨hf, by simp [State.leaveFilling, h, hf]⟩
  · have hz : sh.filledRows = 0 := by omega
    cases ho : sh.origin with
    | defined => exact .inr (.inl ⟨hz, rfl, by simp [State.leaveFilling, h, hf, ho]⟩)
    | received =>
      by_cases hr : sh.readers = 0
      · exact .inr (.inr (.inl ⟨hz, rfl, hr, by simp [State.leaveFilling, h, hf, ho, hr]⟩))
      · exact .inr (.inr (.inr ⟨hz, rfl, hr, by simp [State.leaveFilling, h, hf, ho, hr]⟩))

/-- Everything that taking an unbind does (R92). -/
theorem State.unbindSheet_cases (i : Nat) :
    ((∀ sh, s.sheet i = some sh → sh.writers = 0) ∧ s.unbindSheet i = s) ∨
    ∃ sh, s.sheet i = some sh ∧
      ((1 < sh.writers ∧ s.unbindSheet i = s.updSheet i fun x => { x with writers := x.writers - 1 }) ∨
        (sh.writers = 1 ∧
          s.unbindSheet i = (s.updSheet i fun x => { x with writers := x.writers - 1 }).leaveFilling i)) := by
  unfold State.unbindSheet
  split
  · rename_i hs
    exact .inl ⟨fun sh h => absurd (hs.symm.trans h) (by simp), rfl⟩
  · rename_i sh hs
    split
    · rename_i hw
      exact .inl ⟨fun x hx => Option.some.inj (hs.symm.trans hx) ▸ hw, rfl⟩
    · rename_i hw
      refine .inr ⟨sh, hs, ?_⟩
      by_cases h1 : sh.writers = 1
      · exact .inr ⟨h1, if_pos h1⟩
      · exact .inl ⟨by omega, if_neg h1⟩

/-- Everything that a deletion of a sheet that is not FILLING does (R94, R96). -/
theorem State.deleteSheet_cases {i : Nat} {sh : Sheet} (h : s.sheet i = some sh) :
    ((sh.state = .filling ∨ sh.state = .retiring) ∧ s.deleteSheet i = s) ∨
    ((sh.state = .defined ∨ sh.state = .complete) ∧ sh.readers = 0 ∧ s.deleteSheet i = s.freeSheet i) ∨
    ((sh.state = .defined ∨ sh.state = .complete) ∧ sh.readers ≠ 0 ∧
      s.deleteSheet i = s.updSheet i fun x => { x with state := .retiring }) := by
  unfold State.deleteSheet
  rw [h]
  cases hs : sh.state <;> by_cases hr : sh.readers = 0 <;> simp [hs, hr]

/-! ### Reclaim, bands, binding -/

/-- A victim is a COMPLETE sheet that is not kept, has no reader and is not the one being written (R87). -/
theorem findVictim_reclaimable (writing : Option Nat) (es : List (Option Sheet)) (base i t : Nat)
    (h : findVictim writing base es = some (i, t)) :
    ∃ k sh, i = base + k ∧ es[k]? = some (some sh) ∧ reclaimable writing i (some sh) = true := by
  induction es generalizing base i t with
  | nil => cases h
  | cons e es ih =>
    simp only [findVictim] at h
    split at h
    · rename_i hr
      have hhere : ∃ k sh, base = base + k ∧ (e :: es)[k]? = some (some sh) ∧
          reclaimable writing base (some sh) = true := by
        cases e with
        | none => cases hr
        | some sh => exact ⟨0, sh, rfl, rfl, hr⟩
      split at h
      · cases h; exact hhere
      · rename_i y hy
        simp only [olderVictim, Option.some.injEq] at h
        split at h
        · obtain ⟨k, sh, e1, e2, e3⟩ := ih (base + 1) i t (h ▸ hy)
          exact ⟨k + 1, sh, by omega, e2, e3⟩
        · cases h; exact hhere
    · obtain ⟨k, sh, e1, e2, e3⟩ := ih (base + 1) i t h
      exact ⟨k + 1, sh, by omega, e2, e3⟩

theorem State.victim_some {writing : Option Nat} {v : Nat} (h : s.victim writing = some v) :
    ∃ sh, s.sheet v = some sh ∧ sh.state = .complete ∧ sh.kept = false ∧ sh.readers = 0 ∧ writing ≠ some v := by
  unfold State.victim at h
  cases hf : findVictim writing 0 s.dir with
  | none => rw [hf] at h; cases h
  | some p =>
    obtain ⟨i, t⟩ := p
    rw [hf] at h
    cases h
    obtain ⟨k, sh, e1, e2, e3⟩ := findVictim_reclaimable writing s.dir 0 i t hf
    have : k = i := by omega
    subst this
    simp [reclaimable] at e3
    exact ⟨sh, by simp [State.sheet, e2], e3.1.1.1, e3.1.1.2, e3.1.2, e3.2⟩

/-- Everything that allocating a band does (R86): the lowest free band, after one reclaim when there is none. -/
theorem State.allocateBand_cases (i : Nat) :
    (∃ b rest, s.freeBands = b :: rest ∧ s.allocateBand i = ({ s with freeBands := rest }, some b)) ∨
    (s.freeBands = [] ∧ s.victim (some i) = none ∧ s.allocateBand i = (s, none)) ∨
    ∃ v, s.freeBands = [] ∧ s.victim (some i) = some v ∧
      ((∃ b rest, (s.freeSheet v).freeBands = b :: rest ∧
          s.allocateBand i = ({ s.freeSheet v with freeBands := rest }, some b)) ∨
        ((s.freeSheet v).freeBands = [] ∧ s.allocateBand i = (s.freeSheet v, none))) := by
  unfold State.allocateBand State.takeBand
  cases hf : s.freeBands with
  | cons b rest => exact .inl ⟨b, rest, rfl, rfl⟩
  | nil =>
    cases hv : s.victim (some i) with
    | none => exact .inr (.inl ⟨rfl, rfl, rfl⟩)
    | some v =>
      refine .inr (.inr ⟨v, rfl, rfl, ?_⟩)
      cases hb : (s.freeSheet v).freeBands with
      | cons b rest => exact .inl ⟨b, rest, rfl, by simp [hb]⟩
      | nil => exact .inr ⟨rfl, by simp [hb]⟩

/-- A candidate has the request's chart, width and line rate and is DEFINED, FILLING or COMPLETE (R90). -/
theorem findCandidate_some (chart width lpm window now : Nat) (es : List (Option Sheet)) (base i t : Nat)
    (h : findCandidate chart width lpm window now base es = some (i, t)) :
    ∃ k sh, i = base + k ∧ es[k]? = some (some sh) ∧ candidate chart width lpm window now (some sh) = true := by
  induction es generalizing base i t with
  | nil => cases h
  | cons e es ih =>
    simp only [findCandidate] at h
    split at h
    · rename_i hr
      have hhere : ∃ k sh, base = base + k ∧ (e :: es)[k]? = some (some sh) ∧
          candidate chart width lpm window now (some sh) = true := by
        cases e with
        | none => cases hr
        | some sh => exact ⟨0, sh, rfl, rfl, hr⟩
      split at h
      · cases h; exact hhere
      · rename_i y hy
        simp only [newerCandidate, Option.some.injEq] at h
        split at h
        · obtain ⟨k, sh, e1, e2, e3⟩ := ih (base + 1) i t (h ▸ hy)
          exact ⟨k + 1, sh, by omega, e2, e3⟩
        · cases h; exact hhere
    · obtain ⟨k, sh, e1, e2, e3⟩ := ih (base + 1) i t h
      exact ⟨k + 1, sh, by omega, e2, e3⟩

/-- Everything that binding to an existing sheet does (R82). -/
theorem State.bindTo_cases {i : Nat} {sh : Sheet} (h : s.sheet i = some sh) :
    (sh.state = .filling ∧ s.bindTo i = s.updSheet i fun x => { x with writers := x.writers + 1 }) ∨
    (sh.state ≠ .filling ∧ s.bindTo i =
      ({ s.updSheet i fun x =>
          { x with
            writers := x.writers + 1
            state := .filling
            openedAt := if sh.state = SheetState.defined then s.runSeconds else x.openedAt } with
        latest := some i }).notify .opened sh.name sh.chart) := by
  unfold State.bindTo
  rw [h]
  cases hs : sh.state <;> simp [hs]

/-- Everything that creating a sheet for a reception does (R91). -/
theorem State.createSheet_cases (name : Text) (chart width lpm height : Nat) :
    (s.freeEntry = none ∧ s.victim none = none ∧ s.createSheet name chart width lpm height = (s, none)) ∨
    ∃ s1 i, ((s.freeEntry = some i ∧ s1 = s) ∨
        (s.freeEntry = none ∧ s.victim none = some i ∧ s1 = s.freeSheet i)) ∧
      ((s1.chooseName name = none ∧ s.createSheet name chart width lpm height = (s1, none)) ∨
        ∃ n, s1.chooseName name = some n ∧ s.createSheet name chart width lpm height =
          (({ s1.setSheet i (Sheet.fresh n chart width lpm height .filling .received 1 s1.runSeconds) with
              latest := some i }).notify .opened n chart, some i)) := by
  cases hf : s.freeEntry with
  | some i =>
    refine .inr ⟨s, i, .inl ⟨rfl, rfl⟩, ?_⟩
    cases hn : s.chooseName name with
    | none => exact .inl ⟨rfl, by simp [State.createSheet, hf, hn]⟩
    | some n => exact .inr ⟨n, rfl, by simp [State.createSheet, hf, hn]⟩
  | none =>
    cases hv : s.victim none with
    | none => exact .inl ⟨rfl, rfl, by simp [State.createSheet, hf, hv]⟩
    | some v =>
      refine .inr ⟨s.freeSheet v, v, .inr ⟨rfl, rfl, rfl⟩, ?_⟩
      cases hn : (s.freeSheet v).chooseName name with
      | none => exact .inl ⟨rfl, by simp [State.createSheet, hf, hv, hn]⟩
      | some n => exact .inr ⟨n, rfl, by simp [State.createSheet, hf, hv, hn]⟩

/-- A bind request binds a candidate or creates a sheet (R89). -/
theorem State.bindSheet_cases (name : Text) (chart width lpm height window : Nat) :
    (∃ i t sh, findCandidate chart width lpm window s.runSeconds 0 s.dir = some (i, t) ∧ s.sheet i = some sh ∧
        candidate chart width lpm window s.runSeconds (some sh) = true ∧
        s.bindSheet name chart width lpm height window = (s.bindTo i, some i)) ∨
    (findCandidate chart width lpm window s.runSeconds 0 s.dir = none ∧
      s.bindSheet name chart width lpm height window = s.createSheet name chart width lpm height) := by
  unfold State.bindSheet
  cases hc : findCandidate chart width lpm window s.runSeconds 0 s.dir with
  | none => exact .inr ⟨rfl, rfl⟩
  | some p =>
    obtain ⟨i, t⟩ := p
    obtain ⟨k, sh, e1, e2, e3⟩ := findCandidate_some chart width lpm window s.runSeconds s.dir 0 i t hc
    have : k = i := by omega
    subst this
    exact .inl ⟨k, t, sh, rfl, by simp [State.sheet, e2], e3, rfl⟩

end Sys2Proof.Machine
end

