-- ==== Sys2Proof/Laws/Receptions.lean ====
section
/-! SUPPORT. The reception manager's shared operations: for each, everything it can do. -/

namespace Sys2Proof.Machine

variable (s : State)

/-! ### Records -/

theorem State.reception_of_recs {k : Nat} {r : Reception} (h : s.reception k = some r) : s.recs[k]? = some (some r) := by
  unfold State.reception at h
  cases hd : s.recs[k]? with
  | none => rw [hd] at h; cases h
  | some e => rw [hd] at h; cases e <;> simp_all

/-- A record is in the reception table. -/
theorem State.reception_mem {k : Nat} {r : Reception} (h : s.reception k = some r) : r ∈ s.recs.filterMap id :=
  List.mem_filterMap.2 ⟨some r, List.mem_of_getElem? (s.reception_of_recs h), rfl⟩

/-- The record found for a number has that number. -/
theorem State.findRec_some {n k : Nat} (h : s.findRec n = some k) : ∃ r, s.reception k = some r ∧ r.number = n := by
  unfold State.findRec at h
  obtain ⟨hi, hp, -⟩ := List.findIdx?_eq_some_iff_getElem.1 h
  cases hd : s.recs[k] with
  | none => rw [hd] at hp; cases hp
  | some r =>
    rw [hd] at hp
    exact ⟨r, by simp [State.reception, List.getElem?_eq_getElem hi, hd], by simpa using hp⟩

/-- A number that no record holds is found nowhere. -/
theorem State.findRec_none {n : Nat} (h : s.findRec n = none) (k : Nat) (r : Reception) (hr : s.reception k = some r) :
    r.number ≠ n := by
  intro hn
  have := List.findIdx?_eq_none_iff.1 h (some r) (List.mem_of_getElem? (s.reception_of_recs hr))
  simp [hn] at this

/-- What the manager finds for a message from a channel: an OPEN record of that number with an active entry of it. -/
theorem State.openMember_some {n : Nat} {ch : Chan} {k : Nat} {r : Reception} {m : Member}
    (h : s.openMember n ch = some (k, r, m)) :
    s.findRec n = some k ∧ s.reception k = some r ∧ r.number = n ∧ r.isOpen = true ∧
      r.memberOf ch = some m ∧ m ∈ r.members ∧ m.chan = ch ∧ m.cause = none := by
  unfold State.openMember at h
  cases hk : s.findRec n with
  | none => rw [hk] at h; cases h
  | some j =>
    obtain ⟨q, hq, hn⟩ := s.findRec_some hk
    cases hm : q.memberOf ch with
    | none => simp [hk, hq, hm] at h
    | some x =>
      simp only [hk, hq, hm] at h
      split at h
      · rename_i ho
        cases h
        rw [Bool.and_eq_true] at ho
        have hc : (m.chan == ch) = true := List.find?_some (p := fun m : Member => m.chan == ch) hm
        exact ⟨rfl, hq, hn, ho.1, hm, List.mem_of_find?_eq_some hm, by simpa using hc,
          by simpa [Member.active] using ho.2⟩
      · cases h

@[simp] theorem Reception.updMember_number (r : Reception) (ch : Chan) (f : Member → Member) :
    (r.updMember ch f).number = r.number := rfl
@[simp] theorem Reception.updMember_isOpen (r : Reception) (ch : Chan) (f : Member → Member) :
    (r.updMember ch f).isOpen = r.isOpen := rfl
@[simp] theorem Reception.updMember_binding (r : Reception) (ch : Chan) (f : Member → Member) :
    (r.updMember ch f).binding = r.binding := rfl
@[simp] theorem Reception.updMember_timing (r : Reception) (ch : Chan) (f : Member → Member) :
    (r.updMember ch f).timing = r.timing := rfl
@[simp] theorem Reception.updMember_members (r : Reception) (ch : Chan) (f : Member → Member) :
    (r.updMember ch f).members = r.members.map fun m => if m.chan = ch then f m else m := rfl

@[simp] theorem Reception.unbindEnded_number (i : Nat) (r : Reception) : (r.unbindEnded i).number = r.number := by
  unfold Reception.unbindEnded; split <;> rfl
@[simp] theorem Reception.unbindEnded_isOpen (i : Nat) (r : Reception) : (r.unbindEnded i).isOpen = r.isOpen := by
  unfold Reception.unbindEnded; split <;> rfl
@[simp] theorem Reception.unbindEnded_members (i : Nat) (r : Reception) : (r.unbindEnded i).members = r.members := by
  unfold Reception.unbindEnded; split <;> rfl

/-- Freeing a sheet leaves an OPEN record as it was (R62). -/
theorem Reception.unbindEnded_of_open (i : Nat) {r : Reception} (h : r.isOpen = true) : r.unbindEnded i = r := by
  simp [Reception.unbindEnded, h]

/-! ### Messages to the manager -/

/-- A state notice changes one mirror, or nothing (R113). -/
theorem State.noteState_cases (ch : Chan) (n : StateNotice) :
    s.noteState ch n = s ∨ ∃ k r m, s.openMember n.reception ch = some (k, r, m) ∧ m.mirror ≠ .imaging ∧
      s.noteState ch n = s.updRec k fun x => x.updMember ch fun y => { y with mirror := n.mirror } := by
  unfold State.noteState
  cases h : s.openMember n.reception ch with
  | none => exact .inl rfl
  | some p =>
    obtain ⟨k, r, m⟩ := p
    by_cases hm : m.mirror = .imaging
    · exact .inl (if_pos hm)
    · exact .inr ⟨k, r, m, rfl, hm, if_neg hm⟩

/-- Everything that a period report does to the manager (R33 to R37): nothing, row 0 and the anchor, a borrowed row, or a
mark. -/
theorem State.notePeriod_cases (ch : Chan) (n : PeriodReport) :
    s.notePeriod ch n = s ∨ ∃ k r m, s.openMember n.reception ch = some (k, r, m) ∧ m.mirror ≠ .imaging ∧
      ((∃ d peff ref, r.timing = .locked d peff ref ∧ anchors m.mark n = true ∧ s.notePeriod ch n =
          (s.updRec k fun x => { x with timing := .anchored d peff ref (ref + n.period * peff) }).assignRow
            k ch r.number 0 (ref + n.period * peff)) ∨
        (∃ d peff ref phase0, r.timing = .anchored d peff ref phase0 ∧ phase0 ≤ ref + n.period * peff ∧
          borrows n = true ∧ s.notePeriod ch n =
            s.assignRow k ch r.number ((ref + n.period * peff - phase0) / peff) (ref + n.period * peff)) ∨
        s.notePeriod ch n = s.setMark k ch n.marker) := by
  unfold State.notePeriod
  cases h : s.openMember n.reception ch with
  | none => exact .inl rfl
  | some p =>
    obtain ⟨k, r, m⟩ := p
    by_cases hm : m.mirror = .imaging
    · exact .inl (if_pos hm)
    · cases ht : r.timing with
      | untimed => exact .inl (by simp [hm, ht])
      | locked d peff ref =>
        refine .inr ⟨k, r, m, rfl, hm, ?_⟩
        by_cases ha : anchors m.mark n = true
        · exact .inl ⟨d, peff, ref, ht, ha, by simp [hm, ht, ha]⟩
        · exact .inr (.inr (by simp [hm, ht, ha]))
      | anchored d peff ref phase0 =>
        refine .inr ⟨k, r, m, rfl, hm, ?_⟩
        by_cases hb : phase0 ≤ ref + n.period * peff ∧ borrows n = true
        · exact .inr (.inl ⟨d, peff, ref, phase0, ht, hb.1, hb.2, by simp [hm, ht, hb.1, hb.2]⟩)
        · exact .inr (.inr (by simp only [hm, ht, if_false]; exact if_neg hb))

/-- Everything that an end notice does to the manager (R120, R121): nothing, one member entry ended, or the last one ended
and the reception with it. -/
theorem State.noteEnd_cases (ch : Chan) (n : EndNotice) :
    (s.openMember n.reception ch = none ∧ s.noteEnd ch n = s) ∨
    ∃ k r m, s.openMember n.reception ch = some (k, r, m) ∧
      (((r.updMember ch (Member.ended n)).activeChans ≠ [] ∧
          s.noteEnd ch n = s.updRec k fun x => x.updMember ch (Member.ended n)) ∨
        ((r.updMember ch (Member.ended n)).activeChans = [] ∧ s.noteEnd ch n =
          (s.updRec k fun x => x.updMember ch (Member.ended n)).endReception k (r.updMember ch (Member.ended n)))) := by
  unfold State.noteEnd
  cases h : s.openMember n.reception ch with
  | none => exact .inl ⟨rfl, rfl⟩
  | some p =>
    obtain ⟨k, r, m⟩ := p
    refine .inr ⟨k, r, m, rfl, ?_⟩
    by_cases ha : (r.updMember ch (Member.ended n)).activeChans = []
    · exact .inr ⟨ha, if_pos ha⟩
    · exact .inl ⟨ha, if_neg ha⟩

/-! ### Ending -/

/-- A line whose RECV.STOP waits is answered, and keeps everything else (R131). -/
theorem Line.settleStop_fields (n : Nat) (x : Line) :
    x.settleStop n = { x with interp := (x.settleStop n).interp, tx := (x.settleStop n).tx } := by
  unfold Line.settleStop
  split
  · split <;> rfl
  · rfl

/-- A line that does not wait for this reception is left as it was. -/
theorem Line.settleStop_of_ne (n : Nat) (x : Line) (h : ∀ hand, x.interp ≠ .stopping n hand) : x.settleStop n = x := by
  unfold Line.settleStop
  split
  · rename_i m hand hi
    exact if_neg fun (e : m = n) => h hand (by rw [hi, e])
  · rfl

/-- Everything that the end of a reception does (R121). -/
theorem State.endReception_eq (k : Nat) (r : Reception) :
    s.endReception k r =
      { s with
        recs := s.recs.modify k (Option.map fun x =>
          { x with isOpen := false, endSecond := some s.runSeconds, timer := none })
        unbinds := s.unbinds ++ r.binding.toList
        lines := s.lines.mapAll (Line.settleStop r.number) } := rfl

/-- An end order goes to the active members of the record and to no other channel (R122, R123). -/
theorem State.chan_orderEnd (r : Reception) (cause : EndCause) (ch : Chan) :
    (s.orderEnd r cause).chan ch =
      if r.activeChans.contains ch then { s.chan ch with endOrders := (s.chan ch).endOrders ++ [⟨r.number, cause⟩] }
      else s.chan ch :=
  s.chan_mapChans _ ch

/-! ### Starting -/

/-- Everything that a start does from its third step on (R116 to R118): the bind fails and nothing but a reclaim has come to
pass (R128), or the record is taken and the channels join. -/
theorem State.start_cases (sp : StartSpec) (origin : Origin) (duration : Option Nat) (joiners : List Chan) :
    let s0 := joiners.foldl State.takeEnds s
    let k := s0.chooseRecord
    let n := s0.chooseNumber k
    let bound := s0.bindSheet sp.name sp.chart sp.width sp.lpm sp.height sp.window
    ((bound.2 = none ∨ ∃ i, bound.2 = some i ∧ bound.1.sheet i = none) ∧
      s.start sp origin duration joiners =
        ((s.bindSheet sp.name sp.chart sp.width sp.lpm sp.height sp.window).1, none)) ∨
    ∃ i sh, bound.2 = some i ∧ bound.1.sheet i = some sh ∧
      s.start sp origin duration joiners =
        ((({ bound.1 with
            recs := bound.1.recs.set k (some (.fresh sp n origin duration joiners i sh.name bound.1.runSeconds))
            lastNumber := n } : State).mapChans fun ch c =>
          if joiners.contains ch then
            c.join n sp.lpm sp.width sh.height sp.listen (sp.freqOf ch) (s0.clock / Config.fine)
          else c), some n) := by
  intro s0 k n bound
  unfold State.start
  cases hb : bound.2 with
  | none =>
    refine .inl ⟨.inl rfl, ?_⟩
    simp only [s0, bound] at hb ⊢
    rw [hb]
  | some i =>
    cases hs : bound.1.sheet i with
    | none =>
      refine .inl ⟨.inr ⟨i, rfl, hs⟩, ?_⟩
      simp only [s0, bound] at hb hs ⊢
      rw [hb]
      simp only [hs]
    | some sh =>
      refine .inr ⟨i, sh, rfl, hs, ?_⟩
      simp only [s0, bound, k, n] at hb hs ⊢
      rw [hb]
      simp only [hs]

end Sys2Proof.Machine
end

