-- ==== Sys2Proof/Laws/Resets.lean ====
section
/-! SUPPORT. The schedule store's image, the transmitter at a device reset, the reader of a line reset and the taking of a
merge request: for each, everything it can do. -/

namespace Sys2Proof.Machine

variable {s : State}

/-! ### The image of the schedule store -/

theorem StoreImage.valid_iff (x : StoreImage) :
    x.valid = true ↔ x.check = Config.imageCheck x.entries ∧ ∀ e ∈ x.entries, e.wellFormed = true := by
  simp [StoreImage.valid]

@[simp] theorem StoreImage.whole_entries (es : List SchedEntry) : (StoreImage.whole es).entries = es := rfl
@[simp] theorem StoreImage.whole_check (es : List SchedEntry) : (StoreImage.whole es).check = Config.imageCheck es := rfl

/-- An image written whole is valid exactly when its entries are well formed. -/
theorem StoreImage.whole_valid (es : List SchedEntry) :
    (StoreImage.whole es).valid = true ↔ ∀ e ∈ es, e.wellFormed = true := by
  simp [StoreImage.valid_iff]

/-- What a failed or interrupted write leaves is invalid, whatever else it is. -/
@[simp] theorem StoreImage.damaged_valid (es : List SchedEntry) : (StoreImage.damaged es).valid = false := by
  simp only [StoreImage.damaged]
  split
  · rename_i h
    have h1 := (StoreImage.valid_iff _).1 h
    refine Bool.eq_false_iff.2 fun h2 => ?_
    have h3 := ((StoreImage.valid_iff _).1 h2).1
    simp only at h3
    omega
  · rename_i h
    exact Bool.eq_false_iff.2 h

@[simp] theorem SchedEntry.stored_wellFormed (e : SchedEntry) : e.stored.wellFormed = e.wellFormed := rfl

/-! ### The transmitter at a device reset -/

/-- The items of a transmitter in the order of their sending, the first the one that has begun. -/
def Tx.items (x : Tx) : List Text := if x.now = [] then x.waiting else x.now :: x.waiting

theorem Tx.begun_eq (x : Tx) : x.begun = ⟨x.items.head?.getD [], x.items.tail, x.wire⟩ := by
  rcases x with ⟨_ | ⟨b, now⟩, _ | ⟨i, more⟩, wire⟩ <;> rfl

theorem Tx.dropUnbegun_eq (x : Tx) : x.dropUnbegun = ⟨x.items.head?.getD [], [], x.wire⟩ := by
  rw [Tx.dropUnbegun, Tx.begun_eq]

theorem Tx.keepLast_eq (x : Tx) :
    x.keepLast = ⟨x.items.head?.getD [], x.items.tail.getLast?.toList, x.wire⟩ := by
  rw [Tx.keepLast, Tx.begun_eq]

/-- Once everything has been sent there is nothing to discard. -/
@[simp] theorem Tx.dropUnbegun_flush (x : Tx) : x.flush.dropUnbegun = x.flush := rfl

/-! ### A line reset -/

/-- The reader of a line reset: no sheet, one reader fewer, or the sheet gone and its FREED notice taken by the line. -/
theorem State.resetReader_cases (l : LineId) (i : Nat) :
    (s.sheet i = none ∧ s.resetReader l i = s) ∨
    ∃ sh, s.sheet i = some sh ∧
      ((¬(sh.state = .retiring ∧ sh.readers ≤ 1) ∧
          s.resetReader l i = s.updSheet i fun x => { x with readers := x.readers - 1 }) ∨
        (sh.state = .retiring ∧ sh.readers ≤ 1 ∧
          s.resetReader l i = ((s.updSheet i fun x => { x with readers := x.readers - 1 }).freeSheet i).updLine l
            fun x => ({ x with notices := [] }).takeFreed ⟨.freed, sh.name, sh.chart⟩)) := by
  unfold State.resetReader State.dropReader
  cases h : s.sheet i with
  | none => exact .inl ⟨rfl, rfl⟩
  | some sh =>
    refine .inr ⟨sh, rfl, ?_⟩
    by_cases hc : sh.state = .retiring ∧ sh.readers ≤ 1
    · exact .inr ⟨hc.1, hc.2, by simp [hc]⟩
    · exact .inl ⟨hc, by simp [hc]⟩

/-! ### A merge request -/

/-- A merge request is merged or counted where its binding stands, counted where the binding is removed, and otherwise
discarded uncounted. -/
theorem State.takeMerge_cases (q : MergeRequest) :
    (s.findRec q.record.reception = none ∧ s.takeMerge q = s) ∨
    (∃ k, s.findRec q.record.reception = some k ∧ s.reception k = none ∧ s.takeMerge q = s) ∨
    ∃ k rec, s.findRec q.record.reception = some k ∧ s.reception k = some rec ∧
      ((rec.binding = none ∧ s.takeMerge q = s.noteNotStored q.record.reception) ∨
        (rec.binding = some q.entry ∧ s.takeMerge q = s.mergeBound q) ∨
        ((∃ i, rec.binding = some i ∧ i ≠ q.entry) ∧ s.takeMerge q = s)) := by
  unfold State.takeMerge
  cases hk : s.findRec q.record.reception with
  | none => exact .inl ⟨rfl, rfl⟩
  | some k =>
    cases hr : s.reception k with
    | none => exact .inr (.inl ⟨k, rfl, hr, by simp [hr]⟩)
    | some rec =>
      refine .inr (.inr ⟨k, rec, rfl, hr, ?_⟩)
      cases hb : rec.binding with
      | none => exact .inl ⟨rfl, by simp [hr, hb]⟩
      | some i =>
        by_cases hi : i = q.entry
        · exact .inr (.inl ⟨by rw [hi], by simp [hr, hb, hi]⟩)
        · exact .inr (.inr ⟨⟨i, rfl, hi⟩, by simp [hr, hb, hi]⟩)

end Sys2Proof.Machine
end

