-- ==== Sys2Proof/Laws/Transfers.lean ====
section
/-! SUPPORT. The transfer engine's shared operations: for each, everything it can do. -/

namespace Sys2Proof.Machine

variable (s : State)

/-! ### Deciding a terminator -/

/-- Everything that deciding a terminator does (R201, R202). -/
theorem Line.decideEnd_eq (t : Transfer) (e : Terminator) (x : Line) :
    x.decideEnd t e =
      { x with
        transfer := some { t with phase := .ending, pauseRequest := false, pendingEnd := none, endsOk := decide (e = .ok) }
        tx := x.tx.send (e.text t.remaining ++ crlf)
        flags := if e.raisesXfer then { x.flags with xfer := true } else x.flags } := by
  cases e <;> rfl

/-- The row of a FILLED read is the first with a stored span, and lies in the range. -/
theorem nextFilled_some (sh : Sheet) (k a n : Nat) (h : nextFilled sh k a = some n) :
    a ≤ n ∧ n < a + k ∧ (sh.row n).spans.all Option.isNone = false ∧
      ∀ m, a ≤ m → m < n → (sh.row m).spans.all Option.isNone = true := by
  induction k generalizing a with
  | zero => cases h
  | succ k ih =>
    unfold nextFilled at h
    split at h
    · rename_i he
      obtain ⟨h1, h2, h3, h4⟩ := ih (a + 1) h
      refine ⟨by omega, by omega, h3, fun m hm hn => ?_⟩
      by_cases hma : m = a
      · exact hma ▸ he
      · exact h4 m (by omega) hn
    · rename_i he
      cases h
      exact ⟨Nat.le_refl _, by omega, by simpa using he, fun m hm hn => by omega⟩

/-- No row of a FILLED read is left when every row of the range is empty. -/
theorem nextFilled_none (sh : Sheet) (k a : Nat) (h : nextFilled sh k a = none) :
    ∀ m, a ≤ m → m < a + k → (sh.row m).spans.all Option.isNone = true := by
  induction k generalizing a with
  | zero => intro m h1 h2; omega
  | succ k ih =>
    unfold nextFilled at h
    split at h
    · rename_i he
      intro m h1 h2
      by_cases hma : m = a
      · exact hma ▸ he
      · exact ih (a + 1) h m (by omega) (by omega)
    · cases h

/-- Everything that examining the next row does (R190, R191). -/
theorem State.examine_cases (l : LineId) (t : Transfer) :
    (s.sheet t.entry = none ∧ s.examine l t = s) ∨
    ∃ sh, s.sheet t.entry = some sh ∧
      ((∃ n, t.nextRow sh = some n ∧ s.examine l t = s.updLine l fun x =>
          { x with transfer := some { t with next := n + 1, phase := .sending }, tx := x.tx.send (s.rowFrame sh n) }) ∨
        (t.nextRow sh = none ∧
          s.examine l t = s.updLine l (Line.decideEnd { t with next := t.first + t.count } .ok))) := by
  unfold State.examine
  cases hs : s.sheet t.entry with
  | none => exact .inl ⟨rfl, rfl⟩
  | some sh =>
    refine .inr ⟨sh, rfl, ?_⟩
    cases hn : t.nextRow sh with
    | none => exact .inr ⟨rfl, by simp only [hn]⟩
    | some n => exact .inl ⟨n, rfl, by simp only [hn]⟩

/-- Everything that the engine does at a boundary (R196), in its order. -/
theorem State.atBoundary_cases (l : LineId) (t : Transfer) :
    (∃ e, t.pendingEnd = some e ∧ s.atBoundary l t = s.updLine l (Line.decideEnd t e.terminator)) ∨
    (t.pendingEnd = none ∧ t.next = t.first + t.count ∧ s.atBoundary l t = s.updLine l (Line.decideEnd t .ok)) ∨
    (t.pendingEnd = none ∧ t.next ≠ t.first + t.count ∧ t.pauseRequest = true ∧
      s.atBoundary l t = s.updLine l fun x =>
        { x with transfer := some { t with phase := .paused, pauseRequest := false, single := 0 } }) ∨
    (t.pendingEnd = none ∧ t.next ≠ t.first + t.count ∧ t.pauseRequest = false ∧
      s.atBoundary l t = s.examine l t) := by
  unfold State.atBoundary
  cases hp : t.pendingEnd with
  | some e => exact .inl ⟨e, rfl, rfl⟩
  | none =>
    by_cases hn : t.next = t.first + t.count
    · exact .inr (.inl ⟨rfl, hn, if_pos hn⟩)
    · cases hq : t.pauseRequest with
      | true => exact .inr (.inr (.inl ⟨rfl, hn, rfl, by simp [hn]⟩))
      | false => exact .inr (.inr (.inr ⟨rfl, hn, rfl, by simp [hn]⟩))

/-- The engine at a boundary, and examining a row, touch the line alone, and of it the transfer, the transmitter and XFER. -/
theorem State.examine_fields (l : LineId) (t : Transfer) :
    ∃ f : Line → Line, s.examine l t = s.updLine l f ∧
      ∀ x, f x = { x with transfer := (f x).transfer, tx := (f x).tx, flags := (f x).flags } := by
  rcases s.examine_cases l t with ⟨-, h⟩ | ⟨sh, -, ⟨n, -, h⟩ | ⟨-, h⟩⟩
  · exact ⟨id, by rw [h]; exact (s.updLine_self rfl).symm, fun _ => rfl⟩
  · exact ⟨_, h, fun _ => rfl⟩
  · exact ⟨_, h, fun x => by rw [Line.decideEnd_eq]⟩

theorem State.atBoundary_fields (l : LineId) (t : Transfer) :
    ∃ f : Line → Line, s.atBoundary l t = s.updLine l f ∧
      ∀ x, f x = { x with transfer := (f x).transfer, tx := (f x).tx, flags := (f x).flags } := by
  rcases s.atBoundary_cases l t with ⟨e, -, h⟩ | ⟨-, -, h⟩ | ⟨-, -, -, h⟩ | ⟨-, -, -, h⟩
  · exact ⟨_, h, fun x => by rw [Line.decideEnd_eq]⟩
  · exact ⟨_, h, fun x => by rw [Line.decideEnd_eq]⟩
  · exact ⟨_, h, fun _ => rfl⟩
  · rw [h]; exact s.examine_fields l t

/-- The engine's taking of a character touches the line alone, and of it the transfer, the transmitter and XFER; a transfer
stays in flight. -/
theorem State.engineTakes_fields (l : LineId) (t : Transfer) (b : Byte) :
    ∃ f : Line → Line, (s.engineTakes l t b).1 = s.updLine l f ∧
      ∀ x, f x = { x with transfer := (f x).transfer, tx := (f x).tx, flags := (f x).flags } := by
  have same : ∃ f : Line → Line, s = s.updLine l f ∧
      ∀ x, f x = { x with transfer := (f x).transfer, tx := (f x).tx, flags := (f x).flags } :=
    ⟨id, (s.updLine_self rfl).symm, fun _ => rfl⟩
  have ends : ∀ e, ∃ f : Line → Line, s.updLine l (Line.decideEnd t e) = s.updLine l f ∧
      ∀ x, f x = { x with transfer := (f x).transfer, tx := (f x).tx, flags := (f x).flags } :=
    fun e => ⟨_, rfl, fun x => by rw [Line.decideEnd_eq]⟩
  have sets : ∀ t' : Transfer, ∃ f : Line → Line, (s.updLine l fun x => { x with transfer := some t' }) = s.updLine l f ∧
      ∀ x, f x = { x with transfer := (f x).transfer, tx := (f x).tx, flags := (f x).flags } :=
    fun t' => ⟨_, rfl, fun _ => rfl⟩
  unfold State.engineTakes
  dsimp only
  split
  · exact same
  · cases t.phase with
    | sending =>
      cases t.pendingEnd with
      | some e => exact same
      | none =>
        dsimp only
        split
        · exact sets _
        · split
          · exact sets _
          · split
            · exact sets _
            · exact sets _
    | paused =>
      dsimp only
      split
      · exact same
      · split
        · exact s.examine_fields l _
        · split
          · exact ends _
          · exact ends _
    | ending => exact same

end Sys2Proof.Machine
end

