-- ==== Sys2Proof/Tests/Slice0.lean ====
section
/-! SUPPORT. Tests of our own: which terms are commands, the worked examples of the spec, and for every statement with
hypotheses a named theorem that shows concrete states and operands meeting them, clause by clause. -/

namespace Sys2Proof.Tests

open Sys2Proof Sys2Proof.Machine

/-! ### Helpers -/

/-- The state with command `t` the next one of line `l`'s interpreter, first of its command line. -/
def given (s : State) (l : LineId) (t : String) : State := s.setInterp l (.executing ⟨[ascii t], 0⟩)

/-- The command line in hand of `given`. -/
def hand (t : String) : InHand := ⟨[ascii t], 0⟩

/-- The next state of a command, or the state itself. -/
def after (c : Instr) (s : State) : State :=
  match exec c s with
  | .next t => t
  | _ => s

/-- What a line has sent and has to send. -/
def said (s : State) (l : LineId) : Text := (s.line l).tx.wire ++ (s.line l).tx.now ++ (s.line l).tx.waiting.flatten

theorem given_takes (s : State) (l : LineId) (t : String) (k : Keyword) (args : List Text)
    (hs : s.powered = true ∧ s.inReset = false) (hp : parseCommand (ascii t) = .known k args) :
    (given s l t).takes l k args (hand t) :=
  ⟨hs, by simp [given, State.setInterp, hand], ascii t, rfl, hp⟩

/-- A state in which line A's interpreter takes the command `t`. -/
abbrev Taken (s : State) (t : String) (k : Keyword) (args : List Text) : Prop := (given s .a t).takes .a k args (hand t)

/-- After reset. -/
abbrev s0 : State := State.reset

/-! ### Which terms are commands -/

theorem test_wf_sample_frequency : (Instr.sampleTick ⟨⟨4801, 0⟩, ⟨0, 0⟩, ⟨0, 0⟩, ⟨0, 0⟩⟩).wf = false := by decide
theorem test_wf_sample_envelope : (Instr.sampleTick ⟨⟨0, 0⟩, ⟨0, 0⟩, ⟨0, 0⟩, ⟨0, 32768⟩⟩).wf = false := by decide
theorem test_wf_sample_good : (Instr.sampleTick ⟨⟨4800, 32767⟩, ⟨0, 0⟩, ⟨0, 0⟩, ⟨0, 0⟩⟩).wf = true := by decide
theorem test_wf_duration_expiry_number : (Instr.durationExpiry 256).wf = false := by decide
theorem test_wf_stored_number : (Instr.linesStoredNotice 256).wf = false := by decide
theorem test_wf_not_stored_number : (Instr.linesNotStoredNotice 256).wf = false := by decide
theorem test_wf_unbind_entry : (Instr.unbind 24).wf = false := by decide
theorem test_wf_unbind_good : (Instr.unbind 23).wf = true := by decide
theorem test_wf_command_semicolon : (Instr.unknownCommand .a (ascii "A;B")).wf = false := by decide
theorem test_wf_command_control : (Instr.unknownCommand .a [0x13#8]).wf = false := by decide
theorem test_wf_command_long : (Instr.unknownCommand .a (List.replicate 257 0x41#8)).wf = false := by decide +kernel
theorem test_wf_command_good : (Instr.unknownCommand .a (ascii "time? 7")).wf = true := by decide
theorem test_wf_argument_lower : (Instr.chanAbort .a [ascii "a"]).wf = false := by decide
theorem test_wf_argument_comma : (Instr.chanAbort .a [ascii "1,2"]).wf = false := by decide
theorem test_wf_argument_space_before : (Instr.chanAbort .a [ascii " 1"]).wf = false := by decide
theorem test_wf_argument_space_behind : (Instr.chanAbort .a [ascii "1 "]).wf = false := by decide
theorem test_wf_arguments_long : (Instr.chanAbort .a (List.replicate 258 [])).wf = false := by decide +kernel
theorem test_wf_arguments_good : (Instr.rowsRead .b [ascii "SFC312", ascii "0", ascii "MAX", []]).wf = true := by decide

/-! ### The spec's worked examples -/

/-- R160: folding, spaces around commas, empty arguments. -/
theorem test_parse_folds : parseCommand (ascii "  sheet.info?  sfc312 ") = .known .sheetInfo [ascii "SFC312"] := by decide
theorem test_parse_commas : parseCommand (ascii "ROWS.READ * , 0,,") = .known .rowsRead [ascii "*", ascii "0", [], []] := by
  decide
theorem test_parse_query_without_mark : parseCommand (ascii "TIME") = .unknown := by decide
theorem test_parse_action_with_mark : parseCommand (ascii "SCHED.STORE?") = .unknown := by decide
theorem test_parse_digit : parseCommand (ascii "4TIME?") = .malformed := by decide
theorem test_parse_behind_mark : parseCommand (ascii "TIME?X") = .malformed := by decide

/-- R5: the nominal periods and tolerances at 60 and 120 lines a minute. -/
theorem test_nominal_period : nominalPeriod 60 = 9600 ∧ nominalPeriod 90 = 6400 ∧ nominalPeriod 120 = 4800 ∧
    nominalPeriod 180 = 3200 ∧ tolerance 4800 = 48 := by decide

/-- R173's example: MASK 300,15 matches 288 to 303. -/
theorem test_filter_mask : (Filter.mask 300 15).matchesId 288 = true ∧ (Filter.mask 300 15).matchesId 303 = true ∧
    (Filter.mask 300 15).matchesId 304 = false ∧ (Filter.mask 300 15).matchesId 287 = false := by decide

/-- R209's example: the sources of row 115 of SFC312. -/
theorem test_source_bytes : sourceBytes (List.replicate 4 (some ⟨30, .rc1, 9⟩) ++ List.replicate 4 (some ⟨33, .rc2, 7⟩)) =
    [0x55#8, 0xAA#8] := by decide

/-- R207: kind and length of a header frame alone give 0x57. -/
theorem test_header_check : xorBytes (0x48#8 :: bigEndian 2 31) = 0x57#8 ∧ xorBytes (0x52#8 :: bigEndian 2 528) = 0x40#8 := by
  decide

/-- R210's examples. -/
theorem test_tune_messages : tuneMessage 85029 = ascii "TUNE 08502.9" ++ [0x0D#8] ∧
    tuneMessage 300000 = ascii "TUNE 30000.0" ++ [0x0D#8] ∧ tuneMessage 20000 = ascii "TUNE 02000.0" ++ [0x0D#8] := by
  decide

/-- R211: signs, absent values, lists. -/
theorem test_text_forms : signed 30 = ascii "+30" ∧ signed (-300) = ascii "-300" ∧ signed 0 = ascii "0" ∧
    plusList [] = ascii "-" ∧ freqText 85029 = ascii "8502.9" ∧ minuteText 605 = ascii "10:05" := by decide

/-- R91: a requested name that is held is tried with its first ten characters and -2 to -9. -/
theorem test_suffix : (suffixedNames (ascii "LONGNAME1234")).head? = some (ascii "LONGNAME12-2") := by decide

/-- R205's example: rows 100 to 130 with sequences above 2341, asked from the start and from the middle of the run. -/
theorem test_changed_ranges : changedRanges 5 0 [⟨5, []⟩, ⟨6, []⟩, ⟨9, []⟩, ⟨0, []⟩, ⟨7, []⟩] = [(1, 2), (4, 4)] ∧
    changedRanges 5 2 [⟨9, []⟩, ⟨0, []⟩, ⟨7, []⟩] = [(2, 2), (4, 4)] := by decide

/-- R139: an entry that crosses midnight, and its neighbour. -/
def entryAt (id start duration : Nat) (chans : List Chan) : SchedEntry :=
  ⟨id, start, duration, .daily, ⟨chans, none, 312, ascii "A", 1024, 120, 32, .learn, 4, 12, 10, 6⟩, true, .a, none⟩

theorem test_overlap_midnight : (entryAt 1 1430 30 [.rc0]).overlaps (entryAt 2 15 10 [.rc0, .rc1]) = true ∧
    (entryAt 1 1430 30 [.rc0]).overlaps (entryAt 2 20 10 [.rc0]) = false ∧
    (entryAt 1 1430 30 [.rc0]).overlaps (entryAt 2 15 10 [.rc1]) = false := by decide

/-! ### One step on a small state -/

theorem test_uptime_answer : said (after (.sysUptime .a []) (given s0 .a "SYS.UPTIME?")) .a = ascii "=0" ++ crlf := by decide
theorem test_time_unset : said (after (.timeQuery .a []) (given s0 .a "TIME?")) .a = ascii "=UNSET" ++ crlf := by decide
theorem test_flags_after_power_on :
    said (after (.eventFlags .a []) (given s0 .a "EVENT.FLAGS?")) .a = ascii "=TIME,-" ++ crlf := by decide
theorem test_free_answer : said (after (.sheetFree .a []) (given s0 .a "SHEET.FREE?")) .a = ascii "=512,24" ++ crlf := by
  decide +kernel
theorem test_no_sheet :
    said (after (.sheetInfo .a [ascii "X"]) (given s0 .a "SHEET.INFO? X")) .a = ascii "!NO_SHEET 1" ++ crlf := by decide
theorem test_wrong_command_changes_nothing : after (.timeQuery .a []) (given s0 .a "SYS.UPTIME?") = given s0 .a "SYS.UPTIME?" := by
  show State.command (given s0 .a "SYS.UPTIME?") .a .timeQuery [] (bareQuery [] _) = _
  exact if_neg (by decide)
theorem test_tones_answer : (after (.chanTones .a [ascii "0", ascii "MIN", ascii "500"]) (given s0 .a "CHAN.TONES 0,MIN,500")).chan .rc0 =
    { Channel.initial with cfg := { ChanConfig.default with black := 300, white := 500 } } := by decide
theorem test_tones_close :
    said (after (.chanTones .a [ascii "0", ascii "400", ascii "500"]) (given s0 .a "CHAN.TONES 0,400,500")) .a =
      ascii "!BAD_ARG 1" ++ crlf := by decide
theorem test_drop_clamps : clamped? 0 8 8 (ascii "99") = some 8 ∧ clamped? 0 8 8 (ascii "DEF") = some 8 := by decide
theorem test_time_at_midnight : (after .runSecond { s0 with tod := some ⟨23, 59, 59⟩ }).tod = some ⟨0, 0, 0⟩ ∧
    (after .runSecond { s0 with tod := some ⟨23, 59, 59⟩ }).minuteEvents = [0] := by decide
theorem test_sample_tick_clock : (after (.sampleTick ⟨⟨0, 0⟩, ⟨0, 0⟩, ⟨0, 0⟩, ⟨0, 0⟩⟩) s0).clock = 256 := by decide
theorem test_character_waits : ((after (.characterReceived .a 0x54#8 false) s0).line .a).receiving.chars = ascii "T" := by decide
theorem test_framing_error : ((after (.characterReceived .a 0x0A#8 true) s0).line .a).flags.line = true := by decide
theorem test_store_hold : ((after (.schedStore .a []) (given s0 .a "SCHED.STORE")).line .a).interp =
    .held ⟨[], 1⟩ := by decide
theorem test_store_disagrees :
    (after (.schedStoreComplete false) { s0 with writer := some ⟨[], none, none⟩ }).image.valid = false :=
  StoreImage.damaged_valid []
theorem test_power_keeps_image : (after .powerRemoved { s0 with clock := 5, image := ⟨[], 7⟩ }).clock = 0 ∧
    (after .powerRemoved { s0 with clock := 5, image := ⟨[], 7⟩ }).image = ⟨[], 7⟩ := ⟨rfl, rfl⟩

/-! ### States for the witnesses -/

/-- A sheet of 32 rows, row 0 with its first span stored from channel 0, its band allocated. -/
def sheetA : Sheet :=
  { Sheet.fresh (ascii "A") 312 1024 120 32 .filling .received 1 0 with
    seq := 1, readers := 1, filledRows := 1, bandMap := [some 0]
    rows := ⟨1, some ⟨20, .rc0, 0⟩ :: List.replicate 7 none⟩ :: List.replicate 31 .empty }

/-- Reception 0, OPEN, bound to entry 0, channel 0 its one member, with a duration timer. -/
def recA : Reception :=
  { number := 0, isOpen := true, origin := .manual .a, name := ascii "A", binding := some 0, chart := 312, width := 1024,
    lpm := 120, drift := .learn, margin := 4, qmin := 12, listen := 10, window := 6, duration := some 1, timer := some 60,
    timing := .untimed, members := [⟨.rc0, .listening, none, none, none, none⟩], startSecond := 0, endSecond := none,
    stored := 0, notStored := 0 }

/-- A membership of reception 0. -/
def memberA : Membership :=
  { reception := 0, lpm := 120, width := 1024, height := 32, listenLimit := 10, phase := .listening, run := [],
    listen := some 100, lost := 0, timing := none, row := 0, rowStart := 0, det := .fresh 0, markers := [], toneEnds := [],
    kept := [] }

/-- A transfer of the sheet of entry 0, three rows from row 0 on, none examined. -/
def transferA : Transfer := .fresh 0 (ascii "A") .all 0 3

/-- One reception in progress on channel 0, filling the sheet of entry 0, which line A reads. -/
def busy : State :=
  { s0 with
    dir := some sheetA :: List.replicate 23 none, freeBands := List.range' 1 511, latest := some 0
    recs := some recA :: List.replicate 7 none, lastNumber := 0
    chans := s0.chans.upd .rc0 fun c => { c with member := some memberA }
    lines := s0.lines.upd .a fun x => { x with interp := .held ⟨[], 1⟩, transfer := some transferA } }

theorem busy_sheet (i : Nat) : busy.sheet i = if i = 0 then some sheetA else none := by
  cases i with
  | zero => rfl
  | succ n =>
    show (List.replicate 23 (none : Option Sheet))[n]?.join = none
    rw [List.getElem?_replicate]
    split <;> rfl

theorem busy_reception (k : Nat) : busy.reception k = if k = 0 then some recA else none := by
  cases k with
  | zero => rfl
  | succ n =>
    show (List.replicate 7 (none : Option Reception))[n]?.join = none
    rw [List.getElem?_replicate]
    split <;> rfl

theorem busy_recs : busy.recs.filterMap id = [recA] := by decide

theorem busy_sheetsWf : busy.sheetsWf := by
  refine ⟨fun i sh h => ?_, fun i j sh sh' hi hj _ => ?_⟩
  · rw [busy_sheet] at h
    split at h
    · cases h; unfold Sheet.wf; decide
    · cases h
  · rw [busy_sheet] at hi hj
    split at hi <;> split at hj <;> first | omega | contradiction

theorem busy_numbersWf : busy.numbersWf := by
  refine ⟨by decide, by decide, ?_, ?_⟩ <;> rw [busy_recs]
  · simp
  · simp [recA]

theorem busy_membersWf : busy.membersWf := by
  refine ⟨?_, fun ch => ?_⟩
  · rw [busy_recs]; decide
  · cases ch
    · exact (show _ ∧ _ from ⟨by decide, rfl⟩)
    · exact (show _ ∧ _ from ⟨by decide, by decide⟩)
    · exact (show _ ∧ _ from ⟨by decide, by decide⟩)
    · exact (show _ ∧ _ from ⟨by decide, by decide⟩)

theorem busy_writersWf : busy.writersWf := by
  refine ⟨fun i => ?_, ?_⟩
  · unfold State.writersOf
    rw [busy_recs, busy_sheet]
    by_cases h : i = 0
    · subst h; decide
    · have h' : (some 0 == some i) = false := by simpa using fun e => h e.symm
      simp [recA, h, h', busy, s0, State.reset, State.blank]
  · rw [busy_recs]; decide

theorem busy_readersWf : busy.readersWf := by
  refine ⟨fun i => ?_, fun l => ?_, fun l w hw => ?_⟩
  · rw [busy_sheet]
    by_cases h : i = 0
    · subst h; decide
    · have h' : (0 == i) = false := by simpa using fun e => h e.symm
      have : busy.readingLines i = [] := by
        simp only [State.readingLines, LineId.all]
        have ha : (busy.line .a).transfer = some transferA := rfl
        have hb : (busy.line .b).transfer = none := rfl
        have hc : (busy.line .c).transfer = none := rfl
        have he : transferA.entry = 0 := rfl
        simp [List.filter, ha, hb, hc, he, h']
      rw [this, if_neg h]; rfl
  · cases l
    · intro; trivial
    · intro h; cases h
    · intro h; cases h
  · cases hw

theorem busy_bandsWf : busy.bandsWf := by
  refine ⟨?_, List.pairwise_lt_range', fun i sh h => (busy_sheetsWf.1 i sh h).2.1⟩
  have h1 : busy.heldBands = [0] := by decide
  have h2 : List.range Config.bandCount = [0] ++ busy.freeBands := by decide +kernel
  rw [h1, h2]
  exact List.perm_append_comm

/-! ### The hypotheses of the statements -/

theorem test_witness_StepRunsFrontCommand : ({ s0 with pending := [.runSecond, .minuteEvent] } : State).pending =
    .runSecond :: [.minuteEvent] := rfl

theorem test_witness_EmptyQueuePassesCharacterTime : s0.pending = [] ∧ s0.powered = true ∧
    ({ s0 with powered := false } : State).powered = false ∧
    ((s0.updLine .a fun x => { x with tx := ⟨ascii "OK", [], []⟩ }).line .a).tx.now = 0x4F#8 :: ascii "K" ∧
    ((s0.updLine .a fun x => { x with tx := ⟨[], [ascii "OK"], []⟩ }).line .a).tx.waiting = (0x4F#8 :: ascii "K") :: [] := by
  decide

theorem test_witness_PowerAndResetInput : ({ s0 with powered := false } : State).powered = false ∧ s0.powered = true ∧
    s0.image.valid = true ∧ (StoreImage.damaged []).valid = false ∧ s0.writer = none ∧
    (let s (c : Option Bool) : State := { s0 with writer := some ⟨[], none, c⟩ }
     (∃ w, (s (some true)).writer = some w ∧ w.completed = some true) ∧
      ∃ w, (s none).writer = some w ∧ w.completed ≠ some true) :=
  ⟨rfl, rfl, (StoreImage.whole_valid []).2 (by decide), StoreImage.damaged_valid [], rfl, ⟨_, rfl, rfl⟩, _, rfl, by decide⟩

theorem test_witness_DeviceResetEffects :
    let s : State := { busy with resetDue := true }
    s.powered = true ∧ s.inReset = false ∧ (s.resetDue = true ∨ s.sysReset.isSome) ∧ s.tablesWf ∧ s.sheetsWf ∧ s.bandsWf ∧
    s.readersWf ∧ s.numbersWf ∧ s.membersWf ∧ s.writersWf ∧ (s.line .a).transfer = some transferA ∧
    transferA.phase ≠ .ending ∧ s.sysReset ≠ some .a ∧ s.reception 0 = some recA ∧ recA.isOpen = true ∧
    (0 : Nat) / 32768 ∈ s.heldBands ∧ (s.line .b).transfer = none ∧ s.sheet 0 = some sheetA ∧ s.latest = some 0 ∧
    recA.binding = some 0 ∧
    -- the line of a SYS.RESET, and a transfer whose terminator is decided
    ({ busy with sysReset := some .b } : State).sysReset = some .b ∧ busy.resetDue = false ∧
    ({ transferA with phase := .ending } : Transfer).phase = .ending :=
  ⟨rfl, rfl, .inl rfl, ⟨by decide, by decide, by decide⟩, busy_sheetsWf, busy_bandsWf, busy_readersWf, busy_numbersWf,
    busy_membersWf, busy_writersWf, rfl, by decide, by decide, rfl, rfl, by decide, rfl, rfl, rfl, rfl, rfl, rfl, rfl⟩

theorem test_witness_ResetCompleteAndSysReset :
    let w : StoreWrite := ⟨[], none, some false⟩
    let s : State := { s0 with inReset := true, writer := some w }
    s.powered = true ∧ s.inReset = true ∧ s.resetInput = false ∧ s.writer = some w ∧ w.completed = some false ∧
    w.line = none ∧ (∀ v, ({ s with writer := none } : State).writer = some v → v.completed = none) ∧
    ({ s with resetInput := true } : State).resetInput = true ∧
    Taken s0 "SYS.RESET" .sysReset [] ∧ (given s0 .a "SYS.RESET").sysReset = none ∧
    Taken { s0 with sysReset := some .b } "SYS.RESET" .sysReset [] ∧ Taken s0 "SYS.RESET 1" .sysReset [ascii "1"] :=
  ⟨rfl, rfl, rfl, rfl, rfl, rfl, (fun v h => by cases h), rfl, given_takes _ _ _ _ _ (by decide) (by decide), rfl,
    given_takes _ _ _ _ _ (by decide) (by decide), given_takes _ _ _ _ _ (by decide) (by decide)⟩

theorem s0_sheet (i : Nat) : s0.sheet i = none := by
  show (List.replicate 24 (none : Option Sheet))[i]?.join = none
  rw [List.getElem?_replicate]
  split <;> rfl

theorem s0_reception (k : Nat) : s0.reception k = none := by
  show (List.replicate 8 (none : Option Reception))[k]?.join = none
  rw [List.getElem?_replicate]
  split <;> rfl

theorem clamps_number {lo hi d n v : Nat} {t : Text} (h : number? t = some n)
    (hv : v = if n < lo then lo else if hi < n then hi else n) : ClampsTo lo hi d t v := .inr (.inr (.inr ⟨n, h, hv⟩))

theorem clamps_nothing {lo hi d : Nat} {t : Text}
    (h : t ≠ ascii "MIN" ∧ t ≠ ascii "MAX" ∧ t ≠ ascii "DEF" ∧ number? t = none) : ¬∃ n, ClampsTo lo hi d t n := by
  rintro ⟨n, h1 | h1 | h1 | ⟨m, h1, -⟩⟩
  · exact h.1 h1.1
  · exact h.2.1 h1.1
  · exact h.2.2.1 h1.1
  · rw [h.2.2.2] at h1; cases h1

/-! #### Picture and timing -/

theorem test_witness_GrayLevelOfFrequency :
    let cfg : ChanConfig := { ChanConfig.default with black := 300, white := 3400 }
    cfg.black + 200 ≤ cfg.white ∧ cfg.white ≤ cfg.black + 3100 ∧ 300 ≤ cfg.black ∧ cfg.white ≤ 3400 ∧
    (cfg.black < 301 ∧ 301 < cfg.white) ∧ (cfg.black < 3399 ∧ 3399 < cfg.white) ∧ cfg.sense = .norm := by decide

theorem test_witness_SenseExchangesWhiteAndBlack :
    ({ ChanConfig.default with black := 300, white := 500 } : ChanConfig).black + 200 ≤ 500 := by decide

theorem test_witness_SpanQuality : ChanConfig.default.wf ∧ [(⟨4800, 32767⟩ : Sample)] ≠ [] ∧
    (∀ x ∈ [(⟨4800, 32767⟩ : Sample)], x.env ≤ 32767) ∧ (List.replicate 8 (⟨0, 0⟩ : Sample)).length = 8 ∧ 8 % 8 = 0 := by
  unfold ChanConfig.wf; decide

theorem test_witness_LockRunSetsTheTiming :
    let run := [100, 4900]
    2 ≤ run.length ∧ run.head? = some 100 ∧ run.getLast? = some 4900 ∧ 0 < nominalPeriod recA.lpm ∧ recA.drift = .learn ∧
    ({ recA with drift := .fixed (-300) } : Reception).drift = .fixed (-300) := by decide

/-! #### Channels -/

theorem test_witness_MarkersAndPatterns :
    let d : Detector := { Detector.fresh 0 with last := some .black, opening := 29, closing := 0 }
    d.last = some .black ∧ Tone.black ≠ .white ∧ d.whiteFrom = none ∧ 4800 / 20 - 4800 / 100 ≤ 192 ∧
    288 ≤ 4800 / 20 + 4800 / 100 ∧ d.opening = 29 ∧ d.closing = 0 ∧
    ({ d with opening := 0, closing := 29 } : Detector).closing = 29 := by decide

theorem test_witness_MarkerActsOnTheRun :
    let listening : Channel := { Channel.initial with member := some memberA }
    let locked : Membership := { memberA with phase := .locked }
    let collecting : Membership := { memberA with phase := .collecting, run := [100, 4900, 9700] }
    listening.member = some memberA ∧ memberA.timing = none ∧ memberA.phase = .listening ∧ locked.phase = .locked ∧
    collecting.phase = .collecting ∧ collecting.run = [100, 4900] ++ [9700] ∧
    9700 + nominalPeriod 120 - nominalPeriod 120 / 100 ≤ 14452 ∧ 14548 ≤ 9700 + nominalPeriod 120 + nominalPeriod 120 / 100 ∧
    (collecting.run ++ [14548]).length < ChanConfig.default.lock ∧
    ({ ChanConfig.default with lock := 4 } : ChanConfig).lock ≤ (collecting.run ++ [14548]).length ∧
    (let timed : Membership := { memberA with timing := some ⟨25600, 1228800, 1⟩ }
     timed.timing.isSome ∧ timed.phase ≠ .imaging ∧ ({ timed with phase := .imaging } : Membership).phase = .imaging) := by
  decide

/-- A member one window short of the closing pattern, before the last sample of that window. -/
def closing : State :=
  { busy with
    clock := 959 * 256
    chans := busy.chans.upd .rc0 fun c => { c with
      member := some { memberA with
        det := { Detector.fresh 0 with closing := 29, changes := 47, windowSum := 960 * 800 } } } }

/-- What becomes of a member of channel 0 that hears a sample at an index. -/
def hears (m : Membership) (idx f : Nat) : Channel :=
  (after (.sampleTick ⟨⟨f, 0⟩, ⟨0, 0⟩, ⟨0, 0⟩, ⟨0, 0⟩⟩)
    { busy with clock := idx * 256, chans := busy.chans.upd .rc0 fun c => { c with member := some m } }).chan .rc0

/-- R5, R6, R12, R16, R17: a marker of 240 samples at 120 lpm begins the run; the closing pattern ends the membership, the
opening pattern restarts the timer; a report falls due at the end of its period, marked by the marker at its start. -/
theorem test_what_is_heard :
    let white (e : Nat) : Detector := { Detector.fresh 0 with last := some .white, whiteFrom := some e }
    let windows (changes opening closing : Nat) : Detector :=
      { Detector.fresh 0 with opening := opening, closing := closing, changes := changes, windowSum := 960 * 800 }
    let kept : List Sample := List.replicate 20 ⟨1900, 0⟩
    ((hears { memberA with det := white 100 } 340 1500).member.map Membership.run) = some [100] ∧
    ((hears { memberA with det := white 100 } 389 1500).member.map Membership.run) = some [] ∧
    (hears { memberA with det := windows 47 0 29 } 959 1900).endNotices = [⟨0, .closed, false⟩] ∧
    ((hears { memberA with det := windows 35 29 0 } 959 1900).member.map Membership.listen) = some (some (960 + 5760000)) ∧
    (hears { memberA with kept := kept, timing := some ⟨25600, 2560, 1⟩, markers := [158] } 119 1900).periodReports =
      [⟨0, 1, true, false, false⟩] ∧
    (hears { memberA with kept := kept, timing := some ⟨25600, 2560, 1⟩, markers := [159] } 119 1900).periodReports =
      [⟨0, 1, false, false, false⟩] ∧
    (hears { memberA with kept := kept, timing := some ⟨25600, 2560, 1⟩ } 118 1900).periodReports = [] := by decide +kernel

/-- The clauses of the statement about a sample tick, each met at a boundary of its conditions. -/
theorem test_witness_SampleTickClauses :
    judgeTone ChanConfig.default 1700 = .black ∧ judgeTone ChanConfig.default 2100 = .white ∧
    (240 : Nat) - 48 ≤ 292 - 100 ∧ 388 - 100 ≤ (240 : Nat) + 48 ∧ (959 : Nat) % 960 = 959 ∧ (0 : Nat) + 959 ≤ 959 ∧
    800 ≤ 960 * 800 / 960 ∧ (25600 : Nat) + (1 + 1) * 2560 ≤ (119 + 1) * 256 ∧
    ¬(25600 : Nat) + (1 + 1) * 2560 ≤ (118 + 1) * 256 ∧
    (let m : Membership := { memberA with phase := .locked, lost := 39, timing := some ⟨25600, 2560, 1⟩ }
     m.phase = .locked ∧ hasCarrier ChanConfig.default (m.sampleAt .rc0 0) 0 0 = false ∧ ChanConfig.default.lost ≤ m.lost + 1) ∧
    (let m : Membership := { memberA with
      phase := .imaging, timing := some ⟨0, 2560, 1⟩, rowStart := 0, listen := none, kept := List.replicate 10 ⟨1900, 0⟩ }
     m.rowStart + 2560 ≤ (9 + 1) * 256 ∧ ¬m.rowStart + 2560 ≤ (8 + 1) * 256 ∧
      (hears m 9 1900).offers.length = 1 ∧ (hears m 8 1900).offers.length = 0) := by decide +kernel

theorem test_witness_SampleTickAdvancesTheClock : closing.powered = true ∧ closing.inReset = false ∧
    (closing.chan .rc1).member = none ∧ (closing.chan .rc0).member.isSome ∧ 0 < nominalPeriod memberA.lpm ∧
    ((after (.sampleTick ⟨⟨1900, 0⟩, ⟨0, 0⟩, ⟨0, 0⟩, ⟨0, 0⟩⟩) busy).chan .rc0).member.isSome ∧
    ((after (.sampleTick ⟨⟨1900, 0⟩, ⟨0, 0⟩, ⟨0, 0⟩, ⟨0, 0⟩⟩) closing).chan .rc0).member = none := by decide +kernel

theorem test_witness_RowEndOffersOneRecord :
    let silent : ChanConfig := ChanConfig.default
    let loud : ChanConfig := { ChanConfig.default with squelch := 0 }
    let m : Membership := { memberA with phase := .imaging, lost := 39, row := 31 }
    let lost (cfg : ChanConfig) (x : Membership) : Nat := if hasCarrier cfg (x.sampleAt .rc0 0) 0 0 then 0 else x.lost + 1
    (0 < lost silent m ∧ silent.lost ≤ lost silent m) ∧ (lost loud m = 0 ∧ m.height ≤ m.row + 1) ∧
    (lost loud { m with row := 30 } = 0 ∧ 30 + 1 < m.height) ∧ lost silent { m with lost := 38 } < silent.lost ∧
    (0 : Nat) < 1 ∧ hasCarrier silent (fun _ => ⟨0, 800⟩) 0 1 = true ∧ hasCarrier silent (fun _ => ⟨0, 799⟩) 0 1 = false ∧
    (0 : Nat) < m.width := by
  decide +kernel

/-- Channel 0 of `busy` with another membership, at another time. -/
def busyMember (m : Membership) (idx : Nat) : State :=
  { busy with clock := idx * 256, chans := busy.chans.upd .rc0 fun c => { c with member := some m } }

theorem test_witness_DeadlineAndListenTimer :
    let collecting : Membership := { memberA with phase := .collecting, run := [] ++ [100] }
    let late : State := busyMember collecting (100 + 4800 + 240 + 96 + 1)
    late.powered = true ∧ (late.chan .rc0).member = some collecting ∧ collecting.phase = .collecting ∧
    100 + nominalPeriod 120 + nominalPeriod 120 / 20 + 2 * (nominalPeriod 120 / 100) + 1 ≤ late.clock / 256 ∧
    ((busyMember memberA 100).chan .rc0).member = some memberA ∧ memberA.listen = some 100 ∧
    100 ≤ (busyMember memberA 100).clock / 256 ∧ memberA.phase = .listening ∧ (busyMember memberA 99).clock / 256 < 100 ∧
    ((busyMember { memberA with phase := .locked } 100).chan .rc0).member = some { memberA with phase := .locked } ∧
    -- an IDLE channel, a deadline to come, a stopped timer
    (s0.chan .rc0).member = none ∧ (busyMember collecting 5236).clock / 256 <
      100 + nominalPeriod 120 + nominalPeriod 120 / 20 + 2 * (nominalPeriod 120 / 100) + 1 ∧
    collecting.run = [] ++ [100] ∧ ({ memberA with listen := none } : Membership).listen = none := by
  decide

theorem test_witness_LockedNoticeAndFirstRow :
    let with1 (s : State) : State := s.updChan .rc0 fun c => { c with lockedNotices := [⟨0, 25600, 1228800⟩] }
    let with2 (s : State) (row : Nat) : State := s.updChan .rc0 fun c => { c with assignments := [⟨0, row, 25600⟩] }
    let timed : Membership := { memberA with phase := .locked, timing := some ⟨25600, 1228800, 1⟩ }
    (with1 busy).powered = true ∧ ((with1 busy).chan .rc0).lockedNotices = ⟨0, 25600, 1228800⟩ :: [] ∧
    ((with1 busy).chan .rc0).member = some memberA ∧ memberA.reception = 0 ∧ memberA.timing = none ∧
    memberA.phase = .listening ∧ ({ memberA with phase := .collecting } : Membership).phase = .collecting ∧
    ((with1 s0).chan .rc0).member = none ∧
    ((with2 busy 32).chan .rc0).assignments = ⟨0, 32, 25600⟩ :: [] ∧ memberA.height ≤ 32 ∧ memberA.phase ≠ .imaging ∧
    ((with2 (busyMember timed 200) 31).chan .rc0).member = some timed ∧ 31 < timed.height ∧
    timed.timing = some ⟨25600, 1228800, 1⟩ ∧
    (let locked : Membership := { memberA with phase := .locked }
     locked.timing = none ∧ locked.phase = .locked ∧ ((busyMember locked 4900).chan .rc0).member = some locked) := by decide

theorem test_witness_MembershipsEndByOrder :
    let s : State := busy.updChan .rc0 fun c => { c with endOrders := [⟨0, .expired⟩], tune := ⟨some [], none⟩ }
    s.powered = true ∧ (s.chan .rc0).endOrders = ⟨0, .expired⟩ :: [] ∧ (s.chan .rc0).member = some memberA ∧
    memberA.reception = 0 ∧ (s.chan .rc0).tune.sending = some [] ∧ (∀ m, (s0.chan .rc0).member = some m → m.reception ≠ 0) ∧
    Taken s "CHAN.ABORT 0" .chanAbort [ascii "0"] ∧ chan? (ascii "0") = some .rc0 ∧ chan? (ascii "4") = none ∧
    Taken s0 "CHAN.ABORT 4" .chanAbort [ascii "4"] :=
  ⟨rfl, rfl, rfl, rfl, rfl, (fun m h => by cases h), given_takes _ _ _ _ _ (by decide) (by decide), by decide, by decide,
    given_takes _ _ _ _ _ (by decide) (by decide)⟩

theorem test_witness_ChannelSettings :
    chan? (ascii "4") = none ∧ chan? (ascii "0") = some .rc0 ∧ (s0.chan .rc0).member = none ∧
    (busy.chan .rc0).member.isSome ∧
    Taken s0 "CHAN.TONES 4,0,0" .chanTones [ascii "4", ascii "0", ascii "0"] ∧
    Taken s0 "CHAN.SENSE 4,INV" .chanSense [ascii "4", ascii "INV"] ∧
    Taken s0 "CHAN.SQUELCH 4,0" .chanSquelch [ascii "4", ascii "0"] ∧
    Taken s0 "CHAN.LOST 4,0" .chanLost [ascii "4", ascii "0"] ∧ Taken s0 "CHAN.LOCK 4,0" .chanLock [ascii "4", ascii "0"] ∧
    Taken s0 "CHAN.TONES 0,MIN,500" .chanTones [ascii "0", ascii "MIN", ascii "500"] ∧
    ClampsTo 300 3400 1500 (ascii "MIN") 300 ∧ ClampsTo 300 3400 2300 (ascii "500") 500 ∧
    Taken busy "CHAN.TONES 0,MIN,499" .chanTones [ascii "0", ascii "MIN", ascii "499"] ∧
    ClampsTo 300 3400 2300 (ascii "499") 499 ∧
    Taken s0 "CHAN.SENSE 0,NORM" .chanSense [ascii "0", ascii "NORM"] ∧
    Taken busy "CHAN.SENSE 0,INV" .chanSense [ascii "0", ascii "INV"] ∧
    Taken s0 "CHAN.SENSE 0,X" .chanSense [ascii "0", ascii "X"] ∧
    Taken s0 "CHAN.SQUELCH 0,MAX" .chanSquelch [ascii "0", ascii "MAX"] ∧ ClampsTo 0 32767 800 (ascii "MAX") 32767 ∧
    Taken s0 "CHAN.LOST 0,0" .chanLost [ascii "0", ascii "0"] ∧ ClampsTo 1 255 40 (ascii "0") 1 ∧
    Taken s0 "CHAN.LOCK 0,17" .chanLock [ascii "0", ascii "17"] ∧ ClampsTo 4 16 8 (ascii "17") 16 ∧
    Taken s0 "CHAN.LOCK 0,X" .chanLock [ascii "0", ascii "X"] ∧ ¬∃ n, ClampsTo 4 16 8 (ascii "X") n := by
  refine ⟨by decide, by decide, rfl, rfl, ?_, ?_, ?_, ?_, ?_, ?_, .inl ⟨rfl, rfl⟩, clamps_number (n := 500) (by decide) (by decide), ?_,
    clamps_number (n := 499) (by decide) (by decide), ?_, ?_, ?_, ?_, .inr (.inl ⟨rfl, rfl⟩), ?_,
    clamps_number (n := 0) (by decide) (by decide), ?_, clamps_number (n := 17) (by decide) (by decide), ?_,
    clamps_nothing (by decide)⟩ <;> exact given_takes _ _ _ _ _ (by decide) (by decide)

/-! #### The reception manager -/

theorem test_witness_StateNoticeAndLockReport :
    let s : State := busy.updChan .rc0 fun c => { c with
      stateNotices := [⟨0, .phasing⟩], lockReports := [⟨0, [100, 4900, 9700, 14500]⟩] }
    let other : State := s0.updChan .rc0 fun c => { c with stateNotices := [⟨0, .phasing⟩], lockReports := [⟨0, []⟩] }
    s.powered = true ∧ (s.chan .rc0).stateNotices = ⟨0, .phasing⟩ :: [] ∧
    s.openMember 0 .rc0 = some (0, recA, ⟨.rc0, .listening, none, none, none, none⟩) ∧
    (s.chan .rc0).lockReports = ⟨0, [100, 4900, 9700, 14500]⟩ :: [] ∧ recA.timing = .untimed ∧
    lockTiming recA [100, 4900, 9700, 14500] = .locked 0 1228800 3712000 ∧ other.openMember 0 .rc0 = none ∧
    ({ recA with timing := .locked 0 1 1 } : Reception).timing ≠ .untimed := by decide

theorem test_witness_PeriodReportAnchorsOrBorrows :
    let s (t : Timing) (mirror : Mirror) : State :=
      (busy.updRec 0 fun r => { r with timing := t, members := [⟨.rc0, mirror, none, none, none, some true⟩] }).updChan .rc0
        fun c => { c with periodReports := [⟨0, 5, false, true, false⟩] }
    let recd (t : Timing) (mirror : Mirror) : Reception :=
      { recA with timing := t, members := [⟨.rc0, mirror, none, none, none, some true⟩] }
    (s .untimed .phasing).powered = true ∧ ((s .untimed .phasing).chan .rc0).periodReports = ⟨0, 5, false, true, false⟩ :: [] ∧
    (s (.locked 0 100 7) .locked).openMember 0 .rc0 =
      some (0, recd (.locked 0 100 7) .locked, ⟨.rc0, .locked, none, none, none, some true⟩) ∧ Mirror.locked ≠ .imaging ∧
    (s (.anchored 0 100 7 (7 + 5 * 100)) .locked).openMember 0 .rc0 =
      some (0, recd (.anchored 0 100 7 507) .locked, ⟨.rc0, .locked, none, none, none, some true⟩) ∧ (5 : Nat) ≤ 5 ∧
    (s (.locked 0 100 7) .imaging).openMember 0 .rc0 =
      some (0, recd (.locked 0 100 7) .imaging, ⟨.rc0, .imaging, none, none, none, some true⟩) ∧
    s0.openMember 0 .rc0 = none := by decide

theorem test_witness_EndNoticeEndsTheReception :
    let two : List Member := [⟨.rc0, .listening, none, none, none, none⟩, ⟨.rc1, .listening, none, none, none, none⟩]
    let s : State := (busy.updChan .rc0 fun c => { c with endNotices := [⟨0, .full, true⟩] }).setInterp .b (.stopping 0 ⟨[], 1⟩)
    s.powered = true ∧ (s.chan .rc0).endNotices = ⟨0, .full, true⟩ :: [] ∧
    s.openMember 0 .rc0 = some (0, recA, ⟨.rc0, .listening, none, none, none, none⟩) ∧
    (∀ y ∈ recA.members, y.chan ≠ .rc0 → y.cause.isSome) ∧ (s.line .b).interp = .stopping recA.number ⟨[], 1⟩ ∧
    (s.updRec 0 fun r => { r with members := two }).openMember 0 .rc0 =
      some (0, { recA with members := two }, ⟨.rc0, .listening, none, none, none, none⟩) ∧
    (∃ y ∈ two, y.chan ≠ .rc0 ∧ y.cause = none) ∧ s0.openMember 0 .rc0 = none := by decide

theorem test_witness_ReceptionsEndByOrder :
    busy.powered = true ∧ busy.findRec 0 = some 0 ∧ busy.reception 0 = some recA ∧ recA.timer = some 60 ∧
    60 ≤ ({ busy with runSeconds := 60 } : State).runSeconds ∧ recA.isOpen = true ∧
    ({ busy with runSeconds := 59 } : State).runSeconds < 60 ∧
    Taken busy "RECV.STOP 0" .recvStop [ascii "0"] ∧ number? (ascii "0") = some 0 ∧
    Taken busy "RECV.STOP 255" .recvStop [ascii "255"] ∧ number? (ascii "255") = some 255 ∧ busy.findRec 255 = none ∧
    Taken busy "RECV.STOP 256" .recvStop [ascii "256"] ∧ number? (ascii "256") = some 256 ∧
    Taken (busy.updRec 0 fun r => { r with isOpen := false }) "RECV.STOP 0" .recvStop [ascii "0"] ∧
    (busy.updRec 0 fun r => { r with isOpen := false }).reception 0 = some { recA with isOpen := false } :=
  ⟨rfl, by decide, rfl, rfl, by decide, rfl, by decide, given_takes _ _ _ _ _ (by decide) (by decide), by decide,
    given_takes _ _ _ _ _ (by decide) (by decide), by decide, by decide,
    given_takes _ _ _ _ _ (by decide) (by decide), by decide, given_takes _ _ _ _ _ (by decide) (by decide), rfl⟩

/-- Eight ENDED records, the oldest at index 3. -/
def endedRecs : List (Option Reception) :=
  [40, 30, 20, 10, 50, 60, 70, 10].zipIdx.map fun p =>
    some { recA with number := p.2, isOpen := false, endSecond := some p.1 }

theorem test_witness_StartTakesRecordAndNumber :
    busy.recs.length = 8 ∧ busy.reception 1 = none ∧ (0 : Nat) < 8 ∧
    (let full : State := { busy with recs := endedRecs }
     full.recs.length = 8 ∧ (∀ k, k < 8 → (full.reception k).isSome) ∧
      (∃ r, full.reception 3 = some r ∧ r.isOpen = false) ∧ full.chooseRecord = 3 ∧
      full.recs.all (fun e => match e with | some r => !r.isOpen && r.endSecond.isSome | none => false) = true) := by
  refine ⟨by decide, by decide, by decide, by decide, by decide, ⟨_, rfl, by decide⟩, by decide, by decide⟩

/-- A directory without a FREE entry, a candidate for chart 312 or a victim. -/
def fullDir : State := { s0 with dir := List.replicate 24 (some { sheetA with chart := 9 }) }

/-- Reception 0, its one channel IDLE and its end notice in flight. -/
def ending : State :=
  { busy with chans := busy.chans.upd .rc0 fun c => { c with member := none, endNotices := [⟨0, .closed, false⟩] } }

theorem test_witness_RecvNowStartsAReception :
    let t := "RECV.NOW 0,312,A,1024,120,MIN"
    let args := [ascii "0", ascii "312", ascii "A", ascii "1024", ascii "120", ascii "MIN"]
    Taken s0 t .recvNow args ∧ 6 ≤ args.length ∧ args.length ≤ 12 ∧
    (∃ sp, startSpec? args = some sp ∧ (∀ ch ∈ sp.chans, (s0.chan ch).member = none ∧ (s0.chan ch).endNotices = []) ∧
      (∃ ch ∈ sp.chans, (busy.chan ch).member.isSome) ∧
      (s0.bindSheet sp.name sp.chart sp.width sp.lpm sp.height sp.window).2 = some 0 ∧
      ((s0.bindSheet sp.name sp.chart sp.width sp.lpm sp.height sp.window).1.sheet 0).isSome ∧
      (fullDir.bindSheet sp.name sp.chart sp.width sp.lpm sp.height sp.window).2 = none) ∧
    Taken busy t .recvNow args ∧ Taken fullDir t .recvNow args ∧
    startSpec? [ascii "4", ascii "312", ascii "A", ascii "1024", ascii "120", ascii "MIN"] = none ∧
    -- an end notice in flight from a channel that is to join
    Taken ending t .recvNow args ∧ (ending.chan .rc0).member = none ∧ (ending.chan .rc0).endNotices ≠ [] ∧
    (ending.bindSheet (ascii "A") 312 1024 120 32 6).2 = some 0 ∧ [Chan.rc0] = [] ++ .rc0 :: [] ∧
    ∃ u, exec (.endNotice .rc0) ending = .next u := by
  refine ⟨given_takes _ _ _ _ _ (by decide) (by decide), by decide, by decide, ⟨⟨[.rc0], none, 312, ascii "A", 1024, 120, 32,
    .learn, 4, 12, 10, 6⟩, by decide, by decide, by decide, by decide, by decide, by decide⟩,
    given_takes _ _ _ _ _ (by decide) (by decide), given_takes _ _ _ _ _ (by decide) (by decide), by decide,
    given_takes _ _ _ _ _ (by decide) (by decide), rfl, by decide, by decide, rfl, _, rfl⟩

/-- R115, R128: a start on a channel that has just ended takes its end notice, and one that finds no sheet does not. -/
theorem test_start_and_end_notice :
    let run (s : State) : State :=
      after (.recvNow .b [ascii "0", ascii "312", ascii "A", ascii "1024", ascii "120", ascii "MIN"])
        (given s .b "RECV.NOW 0,312,A,1024,120,MIN")
    let noSheet : State := { ending with dir := fullDir.dir }
    ((run ending).chan .rc0).endNotices = [] ∧ (run ending).openNumbers = [1] ∧
    ((run noSheet).chan .rc0).endNotices = (ending.chan .rc0).endNotices ∧ (run noSheet).recs = ending.recs := by
  decide +kernel

/-! #### The pool, the assembler and the store -/

/-- A line record of reception 0 on channel 0. -/
def recordA (row q : Nat) : LineRecord := ⟨.rc0, 0, row, 1024, List.replicate 1024 7, List.replicate 8 q⟩

/-- R75: a record whose reception has lost its binding is counted, though another sheet fills the entry. -/
theorem test_merge_without_binding : (after .mergeRequest { busy with
      hand := some ⟨recordA 0 24, 0, 12, 4⟩
      recs := some { recA with isOpen := false, binding := none } :: List.replicate 7 none }).notStoredNotices = [0] := by
  decide +kernel

/-- R165: the line reset that frees the sheet sets LOST on its line. -/
theorem test_break_sets_lost : ((after (.breakSeen .a) { busy with
      dir := some { sheetA with state := .retiring, writers := 0 } :: List.replicate 23 none }).line .a).flags.members = [.lost] := by
  decide +kernel

/-- R182: a frame not begun is discarded by a device reset, and the item that has begun goes on. -/
theorem test_reset_drops_unbegun : ((busy.line .a).resetInput.tx = ⟨[], [], []⟩) ∧
    ({ busy.line .a with tx := ⟨ascii "OK", [ascii "X"], []⟩ }.resetInput.tx = ⟨ascii "OK", [], []⟩) := by decide

theorem test_witness_OffersTakesAndCounts :
    let r := recordA 0 20
    let s : State := { busy.updChan .rc0 (fun c => { c with offers := [r] }) with
      storedNotices := [0], notStoredNotices := [0] }
    s.powered = true ∧ (s.chan .rc0).offers = r :: [] ∧ s.pool.length < 32 ∧
    32 ≤ ({ s with pool := List.replicate 32 r } : State).pool.length ∧
    ({ s with pool := List.replicate 31 r } : State).pool.length < 32 ∧ s.hand = none ∧
    ({ s with pool := [r] } : State).pool = r :: [] ∧ s.findRec 0 = some 0 ∧ s.reception 0 = some recA ∧
    recA.binding = some 0 ∧ s0.findRec 0 = none ∧
    (s.updRec 0 fun x => { x with binding := none }).reception 0 = some { recA with binding := none } ∧
    0 ∈ s.storedNotices ∧ 0 ∈ s.notStoredNotices ∧ s.findRec 7 = none ∧
    7 ∈ ({ s with storedNotices := [0, 7], notStoredNotices := [7] } : State).storedNotices := by
  refine ⟨rfl, rfl, by decide, by decide, by decide, rfl, rfl, by decide, rfl, rfl, by decide, rfl, by decide, by decide, by decide,
    by decide⟩

theorem test_witness_MergeWritesTheBetterSpans :
    let q : MergeRequest := ⟨recordA 0 24, 0, 12, 4⟩
    let s : State := { busy with hand := some q }
    let blank : Sheet := Sheet.fresh (ascii "A") 312 1024 120 32 .filling .received 1 0
    s.powered = true ∧ s.hand = some q ∧
    (∃ k rec, s.findRec q.record.reception = some k ∧ s.reception k = some rec ∧ rec.binding = some q.entry) ∧
    s.sheet q.entry = some sheetA ∧ sheetA.wf ∧ sheetA.state = .filling ∧
    q.record.row < sheetA.height ∧ q.record.width = sheetA.width ∧ q.record.quals.length = 8 ∧
    (sheetA.row q.record.row).spans.length = 8 ∧ q.record.grays.length = sheetA.width ∧
    (sheetA.width = 1024 ∨ sheetA.width = 1536 ∨ sheetA.width = 2048) ∧ sheetA.seq < 4294967295 ∧
    ({ sheetA with seq := 4294967295 } : Sheet).wf ∧
    -- a span to store: quality 24 reaches the stored 20 plus M, and its band is there
    (q.record.quals[0]? = some 24 ∧ 12 ≤ 24 ∧ (sheetA.row 0).spans[0]? = some (some ⟨20, .rc0, 0⟩) ∧ 20 + 4 ≤ 24) ∧
    sheetA.bandOf 0 = some 0 ∧
    -- no span to store: quality 11 is below q_min
    (recordA 0 11).quals.all (fun g => decide (g < 12)) = true ∧
    -- a band to be taken
    blank.wf ∧ blank.bandOf 0 = none ∧ s.freeBands.head? = some 1 := by
  refine ⟨rfl, rfl, ⟨0, recA, by decide, rfl, rfl⟩, rfl, by unfold Sheet.wf; decide, rfl, by decide, rfl, by decide, by decide,
    List.length_replicate, .inl rfl, by decide, by unfold Sheet.wf; decide, by decide, by decide, by decide,
    by unfold Sheet.wf; decide, by decide, by decide⟩

theorem test_witness_MergeDiscardsAndFails :
    let q : MergeRequest := ⟨recordA 0 24, 0, 12, 4⟩
    let blank : Sheet := Sheet.fresh (ascii "A") 312 1024 120 32 .filling .received 1 0
    let old : Sheet := { sheetA with state := .complete, writers := 0, readers := 0, completedAt := some 9, bandMap := [some 5] }
    let s : State := { busy with hand := some q }
    let rec_ (b : Option Nat) : State := s.updRec 0 fun r => { r with binding := b }
    let tight (es : List (Option Sheet)) : State := { s with dir := es, freeBands := [] }
    s.powered = true ∧ s.hand = some q ∧ s.findRec 0 = some 0 ∧ s.reception 0 = some recA ∧ recA.binding = some q.entry ∧
    ({ s with recs := [] } : State).findRec 0 = none ∧ (rec_ none).reception 0 = some { recA with binding := none } ∧
    (rec_ (some 1)).reception 0 = some { recA with binding := some 1 } ∧ 1 ≠ q.entry ∧
    ({ s with dir := [] } : State).sheet q.entry = none ∧
    s.sheet q.entry = some sheetA ∧ ({ sheetA with state := .complete } : Sheet).state ≠ .filling ∧
    sheetA.height ≤ (recordA 32 24).row ∧ ({ sheetA with width := 1536 } : Sheet).width ≠ q.record.width ∧
    (tight [some blank]).sheet 0 = some blank ∧ blank.state = .filling ∧ 0 < blank.height ∧ q.record.width = blank.width ∧
    (q.record.quals[7]? = some 24 ∧ (blank.row q.record.row).spans[7]? = some none ∧ q.qmin ≤ 24) ∧ blank.bandOf 0 = none ∧
    (∀ i x, (tight [some blank]).sheet i = some x → i ≠ 0 → x.state = .complete → x.kept = false → 0 < x.readers) ∧
    (tight [some blank, some old]).victim (some 0) = some 1 ∧ (tight [some blank, some old]).sheet 1 = some old ∧ old.wf := by
  refine ⟨rfl, rfl, by decide, rfl, rfl, by decide, rfl, rfl, by decide, rfl, rfl, by decide, by decide, by decide, rfl, rfl,
    by decide, rfl, by decide, by decide, ?_, by decide, rfl, by unfold Sheet.wf; decide⟩
  intro i x h hi
  cases i with
  | zero => exact absurd rfl hi
  | succ n => cases h

/-- `busy` with another sheet in entry 0 and an unbind in flight for it. -/
def busySheet (sh : Sheet) : State := { busy with dir := [some sh], unbinds := [0] }

theorem test_witness_UnbindLeavesFilling :
    busy.sheet 0 = some sheetA ∧ busy.freeBands.Pairwise (· ≤ ·) ∧ (busySheet sheetA).powered = true ∧
    0 ∈ (busySheet sheetA).unbinds ∧ (busySheet sheetA).sheet 0 = some sheetA ∧ 0 < sheetA.writers ∧ sheetA.writers = 1 ∧
    0 < sheetA.filledRows ∧ 1 < ({ sheetA with writers := 2 } : Sheet).writers ∧
    (let empty : Sheet := Sheet.fresh (ascii "A") 312 1024 120 32 .filling .received 1 0
     empty.writers = 1 ∧ empty.filledRows = 0 ∧ empty.origin = .received ∧ empty.readers = 0 ∧
      0 < ({ empty with readers := 1 } : Sheet).readers ∧ ({ empty with origin := .defined } : Sheet).origin = .defined) :=
  ⟨rfl, (List.pairwise_lt_range' (s := 1) (n := 511)).imp Nat.le_of_lt, rfl, by decide, rfl, by decide, rfl, by decide, by decide,
    by decide⟩

/-- Two COMPLETE sheets, the second completed earlier and opened later. -/
def twoComplete : State :=
  { s0 with dir := [some { sheetA with state := .complete, writers := 0, readers := 0, completedAt := some 9, openedAt := 1 },
    some { sheetA with state := .complete, writers := 0, readers := 0, completedAt := some 8, openedAt := 2 }] }

theorem test_witness_VictimAndCandidate :
    (∀ i sh, twoComplete.sheet i = some sh → sh.state = .complete → sh.completedAt.isSome) ∧
    twoComplete.victim none = some 1 ∧ twoComplete.victim (some 1) = some 0 ∧ s0.victim none = none ∧
    findCandidate 312 1024 120 6 twoComplete.runSeconds 0 twoComplete.dir = some (1, 2) ∧
    findCandidate 312 1024 120 6 s0.runSeconds 0 s0.dir = none := by
  refine ⟨fun i sh h _ => ?_, by decide, by decide, by decide, by decide, by decide⟩
  match i, h with
  | 0, h => cases h; rfl
  | 1, h => cases h; rfl
  | n + 2, h => cases h

/-- A directory of chart 9 without a FREE entry, entry 3 COMPLETE and unread. -/
def fullWithVictim : State :=
  let old : Sheet := { sheetA with chart := 9, state := .complete, writers := 0, readers := 0, completedAt := some 9 }
  { s0 with dir := fullDir.dir.set 3 (some old) }

/-- A directory in which A and every suffixed form of it are held by sheets of another chart. -/
def heldNames : State :=
  { s0 with dir := (["A", "A-2", "A-3", "A-4", "A-5", "A-6", "A-7", "A-8", "A-9"].map fun n =>
      some { sheetA with name := ascii n, chart := 9 }) ++ List.replicate 15 none }

theorem test_witness_BindRequestBindsOrCreates :
    findCandidate 312 1024 120 6 busy.runSeconds 0 busy.dir = some (0, 0) ∧ busy.sheet 0 = some sheetA ∧
    sheetA.state = .filling ∧ findCandidate 312 1024 120 6 0 0 twoComplete.dir = some (1, 2) ∧
    (∃ sh, twoComplete.sheet 1 = some sh ∧ sh.state ≠ .filling) ∧
    findCandidate 312 1024 120 6 0 0 s0.dir = none ∧ 0 < s0.dir.length ∧ s0.sheet 0 = none ∧ (∀ j sh, s0.sheet j = some sh →
      sh.name ≠ ascii "A") ∧
    findCandidate 312 1024 120 6 0 0 heldNames.dir = none ∧ 9 < heldNames.dir.length ∧ heldNames.sheet 9 = none ∧
    (∀ j, j < 9 → (heldNames.sheet j).isSome) ∧
    (∀ n ∈ ascii "A" :: suffixedNames (ascii "A"), (heldNames.findSheet n).isSome) ∧
    findCandidate 312 1024 120 6 0 0 fullDir.dir = none ∧ (∀ i, i < fullDir.dir.length → (fullDir.sheet i).isSome) ∧
    fullDir.victim none = none ∧ findCandidate 312 1024 120 6 0 0 fullWithVictim.dir = none ∧
    (∀ i, i < fullWithVictim.dir.length → (fullWithVictim.sheet i).isSome) ∧ fullWithVictim.victim none = some 3 :=
  ⟨by decide, rfl, rfl, by decide, ⟨_, rfl, by decide⟩, by decide, by decide, rfl, (fun j sh h => by rw [s0_sheet] at h; cases h),
    by decide, by decide, by decide, by decide, by decide, by decide, by decide, by decide, by decide, by decide, by decide⟩

theorem test_witness_SheetDefineKeepSelect :
    let t := "SHEET.DEFINE A,312,1024,120,31"
    let args := [ascii "A", ascii "312", ascii "1024", ascii "120", ascii "31"]
    Taken s0 t .sheetDefine args ∧ name? (ascii "A") = some (ascii "A") ∧ chart? (ascii "312") = some 312 ∧
    width? (ascii "1024") = some 1024 ∧ lpm? (ascii "120") = some 120 ∧ ClampsTo 32 2048 1280 (ascii "31") 32 ∧
    (∀ j sh, s0.sheet j = some sh → sh.name ≠ ascii "A") ∧ 0 < s0.dir.length ∧ s0.sheet 0 = none ∧
    Taken busy t .sheetDefine args ∧ (∃ sh, busy.sheet 0 = some sh ∧ sh.name = ascii "A") ∧
    Taken fullDir t .sheetDefine args ∧ (∀ i, i < fullDir.dir.length → (fullDir.sheet i).isSome) ∧
    Taken busy "SHEET.KEEP A,ON" .sheetKeep [ascii "A", ascii "ON"] ∧ sheetRef? (ascii "A") = some (.named (ascii "A")) ∧
    busy.resolve .a (.named (ascii "A")) = some 0 ∧ busy.sheet 0 = some sheetA ∧ busy.sheetsWf ∧
    (s0.line .a).selection = .auto ∧ ((s0.updLine .a fun x => { x with selection := .named (ascii "B") }).line .a).selection =
      .named (ascii "B") ∧
    s0.resolve .a (.named (ascii "A")) = none ∧ ({ sheetA with state := .retiring } : Sheet).state = .retiring ∧
    Taken s0 "SHEET.KEEP *,OFF" .sheetKeep [ascii "*", ascii "OFF"] ∧ sheetRef? (ascii "*") = some .selection ∧
    Taken s0 "SHEET.SELECT AUTO" .sheetSelect [ascii "AUTO"] ∧ Taken s0 "SHEET.SELECT B" .sheetSelect [ascii "B"] ∧
    validName (ascii "B") = true ∧ Taken s0 "SHEET.SELECT *" .sheetSelect [ascii "*"] ∧ validName (ascii "*") = false :=
  ⟨given_takes _ _ _ _ _ (by decide) (by decide), by decide, by decide, by decide, by decide,
    clamps_number (n := 31) (by decide) (by decide), (fun j sh h => by rw [s0_sheet] at h; cases h), by decide, rfl,
    given_takes _ _ _ _ _ (by decide) (by decide), ⟨sheetA, rfl, rfl⟩, given_takes _ _ _ _ _ (by decide) (by decide), by decide,
    given_takes _ _ _ _ _ (by decide) (by decide), by decide, by decide, rfl, busy_sheetsWf, rfl, rfl, by decide, rfl,
    given_takes _ _ _ _ _ (by decide) (by decide), by decide, given_takes _ _ _ _ _ (by decide) (by decide),
    given_takes _ _ _ _ _ (by decide) (by decide), by decide, given_takes _ _ _ _ _ (by decide) (by decide), by decide⟩

theorem test_witness_SheetDelete :
    Taken busy "SHEET.DELETE A" .sheetDelete [ascii "A"] ∧ ascii "A" ≠ ascii "ALL" ∧
    sheetRef? (ascii "A") = some (.named (ascii "A")) ∧ busy.resolve .a (.named (ascii "A")) = some 0 ∧
    busy.sheet 0 = some sheetA ∧ sheetA.state = .filling ∧
    Taken busy "SHEET.DELETE A,FORCE" .sheetDelete [ascii "A", ascii "FORCE"] ∧
    (given busy .a "SHEET.DELETE A,FORCE").sheetsWf ∧ (given busy .a "SHEET.DELETE A,FORCE").numbersWf ∧
    (given busy .a "SHEET.DELETE A,FORCE").membersWf ∧ (given busy .a "SHEET.DELETE A,FORCE").writersWf ∧
    busy.reception 0 = some recA ∧ recA.isOpen = true ∧ recA.binding = some 0 ∧
    s0.resolve .a (.named (ascii "A")) = none ∧
    (busySheet { sheetA with state := .complete }).resolve .a (.named (ascii "A")) = some 0 ∧
    (busySheet { sheetA with state := .retiring }).resolve .a (.named (ascii "A")) = some 0 ∧
    Taken busy "SHEET.DELETE ALL" .sheetDelete [ascii "ALL"] ∧
    Taken busy "SHEET.DELETE ALL,FORCE" .sheetDelete [ascii "ALL", ascii "FORCE"] ∧
    (given busy .a "SHEET.DELETE ALL,FORCE").sheetsWf ∧ (given busy .a "SHEET.DELETE ALL,FORCE").numbersWf ∧
    (given busy .a "SHEET.DELETE ALL,FORCE").membersWf ∧ (given busy .a "SHEET.DELETE ALL,FORCE").writersWf ∧
    (∃ y ∈ recA.members, y.chan = .rc0 ∧ y.cause = none) ∧ (∀ y ∈ recA.members, y.chan = .rc1 → y.cause.isSome) ∧
    -- the pointer on a sheet that goes, and a RECV.STOP that waits for the reception
    busy.latest = some 0 ∧ ((busy.setInterp .b (.stopping 0 ⟨[], 1⟩)).line .b).interp = .stopping 0 ⟨[], 1⟩ ∧
    recA.number = 0 :=
  ⟨given_takes _ _ _ _ _ (by decide) (by decide), by decide, by decide, by decide, rfl, rfl,
    given_takes _ _ _ _ _ (by decide) (by decide), busy_sheetsWf, busy_numbersWf, busy_membersWf, busy_writersWf, rfl, rfl, rfl,
    by decide, by decide, by decide, given_takes _ _ _ _ _ (by decide) (by decide),
    given_takes _ _ _ _ _ (by decide) (by decide), busy_sheetsWf, busy_numbersWf, busy_membersWf, busy_writersWf, by decide,
    by decide, rfl, rfl, rfl⟩

/-- R95: with FORCE the member ends ABORTED and the unfilled row's sheet that line A reads is RETIRING. -/
theorem test_delete_force :
    let t := after (.sheetDelete .b [ascii "A", ascii "FORCE"]) (given busy .b "SHEET.DELETE A,FORCE")
    (t.reception 0).map (fun r => (r.isOpen, r.members)) = some (false, [⟨.rc0, .ended, none, none, some .aborted, none⟩]) ∧
    (t.sheet 0).map Sheet.state = some .retiring ∧ (t.chan .rc0).member = none := by decide +kernel

/-! #### Time and the schedule -/

theorem test_witness_TimeOfDayAndRunSeconds :
    s0.powered = true ∧ s0.tod = none ∧ ({ s0 with tod := some ⟨23, 59, 59⟩ } : State).tod = some ⟨23, 59, 59⟩ ∧
    Taken s0 "TIME.SET 23:59:59" .timeSet [ascii "23:59:59"] ∧ timeOfDay? (ascii "23:59:59") = some ⟨23, 59, 59⟩ ∧
    Taken s0 "TIME.SET 24:00:00" .timeSet [ascii "24:00:00"] ∧ timeOfDay? (ascii "24:00:00") = none ∧
    Taken s0 "SCHED.RUN ON" .schedRun [ascii "ON"] ∧ Taken s0 "SCHED.RUN OFF" .schedRun [ascii "OFF"] ∧
    Taken s0 "SCHED.RUN X" .schedRun [ascii "X"] :=
  ⟨rfl, rfl, rfl, given_takes _ _ _ _ _ (by decide) (by decide), by decide, given_takes _ _ _ _ _ (by decide) (by decide),
    by decide, given_takes _ _ _ _ _ (by decide) (by decide), given_takes _ _ _ _ _ (by decide) (by decide),
    given_takes _ _ _ _ _ (by decide) (by decide)⟩

theorem test_witness_MinuteEventStartsDueEntries :
    let e := entryAt 1 600 30 [.rc0]
    let s (b : State) : State := { b with minuteEvents := [600], sched := [e] }
    (s busy).powered = true ∧ (s busy).minuteEvents = 600 :: [] ∧ (s busy).inReset = false ∧
    ({ s busy with inReset := true } : State).inReset = true ∧
    (∀ x ∈ ({ s busy with sched := [] } : State).sched, ¬(x.enabled = true ∧ x.start = 600)) ∧
    (s busy).sched.filter (fun x => x.enabled && x.start == 600) = [e] ∧
    (∀ ch ∈ e.spec.chans, ((s busy).chan ch).member.isSome) ∧
    [Chan.rc0] = e.spec.chans.filter (fun ch => ((s s0).chan ch).member.isNone) ∧ [Chan.rc0] ≠ [] ∧
    (({ s s0 with minuteEvents := [] } : State).start e.spec (.sched e.id) (some e.duration) [.rc0]).2 = some 0 ∧
    (({ s fullDir with minuteEvents := [] } : State).start e.spec (.sched e.id) (some e.duration) [.rc0]).2 = none := by
  decide

/-- R141: two entries due at one minute are taken in table order: the first takes the channel, the second finds it busy. -/
theorem test_two_due :
    (after .minuteEvent { s0 with
      minuteEvents := [600], sched := [entryAt 1 600 30 [.rc0], entryAt 2 600 30 [.rc0]] }).sched.map SchedEntry.outcome =
      [some (.started 0), some .busy] := by decide +kernel

theorem joined_one {sep : Byte} {t : Text} (h : sep ∉ t) : Joined sep [t] t :=
  ⟨by simp, by simpa using h, by simp⟩

/-- The entry of a SCHED.ADD command, read field by field. -/
theorem entry_reads : EntryReads .a [ascii "2", ascii "10:15", ascii "30", ascii "DAILY", ascii "0", ascii "312", ascii "A",
    ascii "1024", ascii "120", ascii "MIN"] ⟨2, 615, 30, .daily, ⟨[.rc0], none, 312, ascii "A", 1024, 120, 32, .learn, 4, 12, 10,
      6⟩, true, .a, none⟩ := by
  refine ⟨ascii "2", ascii "10", ascii "15", ascii "30", ascii "DAILY", _, 10, 15, rfl, by decide, ?_, ?_, rfl,
    clamps_number (n := 30) (by decide) (by decide), .inl ⟨rfl, rfl⟩, ?_, rfl, rfl, rfl⟩
  · exact ⟨by decide, by decide, by decide⟩
  · exact ⟨by decide, by decide, by decide⟩
  · exact ⟨ascii "0", _, _, _, _, _, [], rfl, ⟨by decide, [ascii "0"], joined_one (by decide), by decide⟩, by decide,
      ⟨rfl, by unfold NameWf; decide⟩, by decide, by decide, .inl ⟨rfl, rfl⟩, .inl ⟨.inl rfl, rfl⟩, .inl ⟨.inl rfl, rfl⟩,
      .inl ⟨.inl rfl, rfl⟩, .inl ⟨.inl rfl, rfl⟩, .inl ⟨.inl rfl, rfl⟩, .inl ⟨.inl rfl, rfl⟩⟩

theorem test_witness_ScheduleTableCommands :
    let t := "SCHED.ADD 2,10:15,30,DAILY,0,312,A,1024,120,MIN"
    let args := [ascii "2", ascii "10:15", ascii "30", ascii "DAILY", ascii "0", ascii "312", ascii "A", ascii "1024",
      ascii "120", ascii "MIN"]
    let one : State := { s0 with sched := [entryAt 1 600 30 [.rc0]] }
    Taken one t .schedAdd args ∧ 10 ≤ args.length ∧ args.length ≤ 16 ∧
    (∃ e, schedEntry? .a args = some e ∧ e.start = 615 ∧ (∀ x ∈ one.sched, x.id ≠ e.id) ∧ one.sched.length < 32 ∧
      (∃ x ∈ one.sched, x.enabled = true ∧ e.collides x) ∧ (∀ x ∈ s0.sched, x.enabled = true → ¬e.collides x)) ∧
    schedEntry? .a (ascii "0" :: args.tail) = none ∧ SchedTableWf one.sched ∧
    32 ≤ (List.replicate 32 (entryAt 1 600 30 [.rc0])).length ∧
    Taken one "SCHED.DEL ALL" .schedDel [ascii "ALL"] ∧ Taken one "SCHED.DEL 1" .schedDel [ascii "1"] ∧
    Taken one "SCHED.ON 1" .schedOn [ascii "1"] ∧ Taken one "SCHED.OFF 1" .schedOff [ascii "1"] ∧
    number? (ascii "1") = some 1 ∧ one.sched = [] ++ entryAt 1 600 30 [.rc0] :: [] ∧
    Taken one "SCHED.DEL 99" .schedDel [ascii "99"] ∧ number? (ascii "99") = some 99 ∧ (∀ x ∈ one.sched, x.id ≠ 99) := by
  refine ⟨given_takes _ _ _ _ _ (by decide) (by decide), by decide, by decide, ⟨⟨2, 615, 30, .daily, ⟨[.rc0], none, 312, ascii "A",
    1024, 120, 32, .learn, 4, 12, 10, 6⟩, true, .a, none⟩, by decide, rfl, by decide, by decide,
    ⟨entryAt 1 600 30 [.rc0], by decide, rfl, ⟨615, by decide, by decide, by decide⟩, .rc0, by decide, by decide⟩,
    fun x hx => by cases hx⟩, by decide, ?_, by decide,
    given_takes _ _ _ _ _ (by decide) (by decide), given_takes _ _ _ _ _ (by decide) (by decide),
    given_takes _ _ _ _ _ (by decide) (by decide), given_takes _ _ _ _ _ (by decide) (by decide), by decide, rfl,
    given_takes _ _ _ _ _ (by decide) (by decide), by decide, by decide⟩
  exact ⟨by decide, by decide, List.pairwise_singleton .., List.pairwise_singleton .., List.pairwise_singleton ..⟩

theorem test_witness_OverlapIsASharedMinuteAndChannel :
    let x := entryAt 1 1439 180 [.rc0]
    let y := entryAt 2 0 1 [.rc0]
    x.start < 1440 ∧ y.start < 1440 ∧ 1 ≤ x.duration ∧ x.duration ≤ 180 ∧ 1 ≤ y.duration ∧ y.duration ≤ 180 := by decide

theorem test_witness_ScheduleStore :
    Taken s0 "SCHED.STORE" .schedStore [] ∧
    (let w : StoreWrite := ⟨[], some .a, none⟩
     let s : State := { s0.setInterp .a (.held ⟨[], 1⟩) with writer := some w }
     s.powered = true ∧ s.writer = some w ∧ s.inReset = false ∧ ({ s with inReset := true } : State).inReset = true ∧
      w.completed = none ∧ w.line = some .a ∧ w.line ≠ some .b ∧ (s.line .a).interp = .held ⟨[], 1⟩) ∧
    SchedTableWf [] :=
  ⟨given_takes _ _ _ _ _ (by decide) (by decide), by decide, by decide, by decide, List.Pairwise.nil, List.Pairwise.nil,
    List.Pairwise.nil⟩

/-! #### Command lines -/

theorem test_witness_CharactersFillTheBuffer :
    s0.awake ∧ (s0.line .a).inBreak = false ∧ (s0.line .a).transfer = none ∧ (s0.line .a).receiving.overrun = false ∧
    (s0.line .a).buffered < 256 ∧
    ((s0.updLine .a fun x => { x with receiving := ⟨List.replicate 255 0x41#8, false⟩ }).line .a).buffered < 256 ∧
    256 ≤ ((s0.updLine .a fun x => { x with receiving := ⟨List.replicate 256 0x41#8, false⟩ }).line .a).buffered ∧
    ((s0.updLine .a fun x => { x with receiving := ⟨[], true⟩ }).line .a).receiving.overrun = true ∧
    ((s0.updLine .a fun x => { x with inBreak := true }).line .a).inBreak = true ∧ s0.powered = true := by
  unfold State.awake; decide +kernel

theorem test_witness_BreakResetsItsLine :
    busy.powered = true ∧ busy.inReset = false ∧ (busy.line .a).inBreak = false ∧ (busy.line .b).transfer = none ∧
    (busy.line .a).transfer = some transferA ∧ busy.sheet transferA.entry = some sheetA ∧
    ¬(sheetA.state = .retiring ∧ sheetA.readers ≤ 1) ∧
    (busySheet { sheetA with state := .retiring }).sheet transferA.entry = some { sheetA with state := .retiring } ∧
    ({ sheetA with state := .retiring } : Sheet).readers ≤ 1 ∧ ({ busy with inReset := true } : State).inReset = true ∧
    ((busy.updLine .a fun x => { x with inBreak := true }).line .a).inBreak = true := by decide

theorem test_witness_CommandLinesAreTakenAndAnswered :
    let s (c : CmdLine) : State := s0.updLine .a fun x => { x with complete := [c] }
    (s ⟨ascii "TIME?;X", false⟩).awake ∧ ((s ⟨ascii "TIME?;X", false⟩).line .a).interp = .ready ∧
    ((s ⟨ascii "TIME?;X", false⟩).line .a).complete = ⟨ascii "TIME?;X", false⟩ :: [] ∧
    (∃ b ∈ ascii "TIME?;X", b ≠ 0x20#8) ∧ (⟨[], true⟩ : CmdLine).overrun = true ∧ (∀ b ∈ ascii "  ", b = 0x20#8) ∧
    (given s0 .a "TIME?X").awake ∧ ((given s0 .a "TIME?X").line .a).interp = .executing (hand "TIME?X") ∧
    (hand "TIME?X").todo.head? = some (ascii "TIME?X") ∧ parseCommand (ascii "TIME?X") = .malformed ∧
    ((given s0 .a "TIME").line .a).interp = .executing (hand "TIME") ∧ parseCommand (ascii "TIME") = .unknown := by
  unfold State.awake; decide

/-- Command lines with too few or too many arguments, one for each row of the statement's list. -/
def miscounted : List (String × Keyword × List Text) :=
  let one := [ascii "1"]
  [("CHAN.TONES 1", .chanTones, one), ("CHAN.SENSE 1", .chanSense, one), ("CHAN.SQUELCH 1", .chanSquelch, one),
    ("CHAN.LOST 1", .chanLost, one), ("CHAN.LOCK 1", .chanLock, one), ("CHAN.STATE?", .chanState, []),
    ("CHAN.ABORT", .chanAbort, []), ("SHEET.DEFINE 1", .sheetDefine, one), ("SHEET.KEEP 1", .sheetKeep, one),
    ("SHEET.INFO?", .sheetInfo, []), ("SHEET.SELECT", .sheetSelect, []), ("RECV.NOW 1", .recvNow, one),
    ("RECV.STOP", .recvStop, []), ("RECV.STATUS?", .recvStatus, []), ("SCHED.ADD 1", .schedAdd, one),
    ("SCHED.DEL", .schedDel, []), ("SCHED.ON", .schedOn, []), ("SCHED.OFF", .schedOff, []), ("SCHED.RUN", .schedRun, []),
    ("SCHED.STORE 1", .schedStore, one), ("TIME.SET", .timeSet, []), ("EVENT.TAKE? 1", .eventTake, one),
    ("EVENT.CLEAR", .eventClear, []), ("EVENT.SET", .eventSet, []), ("EVENT.ENABLE", .eventEnable, []),
    ("EVENT.DISABLE", .eventDisable, []), ("LINE.FILTER", .lineFilter, []), ("LINE.NEWS? 1", .lineNews, one),
    ("LINE.NEWS.DROP", .lineNewsDrop, []), ("LINE.AUTOTAKE", .lineAutotake, []), ("ROWS.SINCE? 1", .rowsSince, one),
    ("ROWS.MAP? 1", .rowsMap, one)]

theorem test_witness_RefusedArguments :
    (∀ p ∈ miscounted, Taken s0 p.1 p.2.1 p.2.2) ∧
    Taken s0 "SHEET.DELETE" .sheetDelete [] ∧ Taken s0 "SHEET.DELETE A,B,C" .sheetDelete [ascii "A", ascii "B", ascii "C"] ∧
    Taken s0 "SHEET.DELETE ALL,B,C" .sheetDelete [ascii "ALL", ascii "B", ascii "C"] ∧
    Taken s0 "SHEET.DEFINE MAX,0,1024,60,32" .sheetDefine [ascii "MAX", ascii "0", ascii "1024", ascii "60", ascii "32"] ∧
    name? (ascii "MAX") = none ∧ Taken s0 "SHEET.KEEP A,X" .sheetKeep [ascii "A", ascii "X"] ∧
    Taken s0 "SHEET.DELETE DEF" .sheetDelete [ascii "DEF"] ∧ sheetRef? (ascii "DEF") = none ∧
    Taken s0 "SHEET.DELETE A,X" .sheetDelete [ascii "A", ascii "X"] ∧
    Taken s0 "SHEET.DELETE ALL,X" .sheetDelete [ascii "ALL", ascii "X"] ∧
    Taken s0 "SCHED.DEL 100" .schedDel [ascii "100"] ∧ Taken s0 "SCHED.ON 100" .schedOn [ascii "100"] ∧
    Taken s0 "SCHED.OFF 0" .schedOff [ascii "0"] ∧ number? (ascii "100") = some 100 ∧ number? (ascii "0") = some 0 ∧
    Taken s0 "LINE.FILTER X,1,2" .lineFilter [ascii "X", ascii "1", ascii "2"] ∧
    Taken s0 "LINE.FILTER OFF,1,2" .lineFilter [ascii "OFF", ascii "1", ascii "2"] ∧
    Taken s0 "LINE.FILTER MASK" .lineFilter [ascii "MASK"] ∧
    Taken s0 "LINE.FILTER OFF,1" .lineFilter [ascii "OFF", ascii "1"] ∧
    Taken s0 "LINE.NEWS.DROP X" .lineNewsDrop [ascii "X"] ∧ clamped? 0 8 8 (ascii "X") = none ∧
    Taken s0 "ROWS.SINCE? A,X" .rowsSince [ascii "A", ascii "X"] ∧ number? (ascii "X") = none ∧
    Taken s0 "ROWS.SINCE? A,0,X" .rowsSince [ascii "A", ascii "0", ascii "X"] ∧
    Taken s0 "ROWS.MAP? A,0,X" .rowsMap [ascii "A", ascii "0", ascii "X"] ∧
    Taken s0 "CHAN.TONES 0,X,500" .chanTones [ascii "0", ascii "X", ascii "500"] ∧
    Taken s0 "CHAN.TONES 0,500,X" .chanTones [ascii "0", ascii "500", ascii "X"] ∧
    Taken s0 "LINE.FILTER X" .lineFilter [ascii "X"] ∧ Taken s0 "LINE.FILTER X,1" .lineFilter [ascii "X", ascii "1"] ∧
    Taken s0 "LINE.FILTER RANGE,0,X" .lineFilter [ascii "RANGE", ascii "0", ascii "X"] ∧
    Taken s0 "ROWS.SINCE? ALL,0,0" .rowsSince [ascii "ALL", ascii "0", ascii "0"] ∧
    Taken s0 "ROWS.SINCE? A,X,0" .rowsSince [ascii "A", ascii "X", ascii "0"] ∧
    (¬∃ n, ClampsTo 300 3400 1500 (ascii "X") n) ∧ (∀ n, n ≤ 4095 → number? (ascii "X") ≠ some n) := by
  have this : ∀ p ∈ miscounted, parseCommand (ascii p.1) = .known p.2.1 p.2.2 := by decide
  refine ⟨fun p hp => given_takes _ _ _ _ _ (by decide) (this p hp), ?_, ?_, ?_, ?_, by decide, ?_, ?_, by decide, ?_, ?_, ?_, ?_,
    ?_, by decide, by decide, ?_, ?_, ?_, ?_, ?_, by decide, ?_, by decide, ?_, ?_, ?_, ?_, ?_, ?_, ?_, ?_, ?_,
    clamps_nothing (by decide), fun n _ => by rw [show number? (ascii "X") = none by decide]; simp⟩
  all_goals exact given_takes _ _ _ _ _ (by decide) (by decide)

theorem test_witness_SheetNoticesMakeNews :
    (4095 : Nat) < 4096 ∧ (0 : Nat) < 4096 ∧
    let n (k : NoticeKind) : SheetNotice := ⟨k, ascii "A", 312⟩
    let s (k : NoticeKind) (x : Line → Line) : State := s0.updLine .a fun y => x { y with notices := [n k] }
    (s .opened id).powered = true ∧ ((s .opened id).line .a).notices = n .opened :: [] ∧ (n .opened).kind ≠ .freed ∧
    ((s .opened id).line .a).filter.matchesId 312 = true ∧
    (∀ e ∈ ((s .opened id).line .a).news, ¬(e.name = ascii "A" ∧ e.kind = .opened)) ∧
    ((s .opened fun x => { x with filter := .off }).line .a).filter.matchesId 312 = false ∧
    (∃ e ∈ ((s .opened fun x => { x with news := [n .opened] }).line .a).news, e.name = ascii "A" ∧ e.kind = .opened) ∧
    ((s .freed id).line .a).notices = n .freed :: [] ∧ (n .freed).kind = .freed ∧
    8 ≤ ((s .opened fun x => { x with news := List.replicate 8 ⟨.done, ascii "B", 1⟩ }).line .a).news.length := by decide

theorem test_witness_EventFlagCommands :
    Taken s0 "EVENT.TAKE?" .eventTake [] ∧ flags? (ascii "NEWS+TIME") = some [.news, .time] ∧ flags? (ascii "FOO") = none ∧
    Taken s0 "EVENT.CLEAR NEWS+TIME" .eventClear [ascii "NEWS+TIME"] ∧
    Taken s0 "EVENT.SET NEWS+TIME" .eventSet [ascii "NEWS+TIME"] ∧
    Taken s0 "EVENT.ENABLE NEWS+TIME" .eventEnable [ascii "NEWS+TIME"] ∧
    Taken s0 "EVENT.DISABLE NEWS+TIME" .eventDisable [ascii "NEWS+TIME"] ∧
    Taken s0 "EVENT.CLEAR FOO" .eventClear [ascii "FOO"] ∧ Taken s0 "EVENT.SET FOO" .eventSet [ascii "FOO"] ∧
    Taken s0 "EVENT.ENABLE FOO" .eventEnable [ascii "FOO"] ∧ Taken s0 "EVENT.DISABLE FOO" .eventDisable [ascii "FOO"] := by
  refine ⟨?_, by decide, by decide, ?_, ?_, ?_, ?_, ?_, ?_, ?_, ?_⟩ <;> exact given_takes _ _ _ _ _ (by decide) (by decide)

theorem test_witness_LineCommands :
    Taken s0 "LINE.FILTER MASK,0,4095" .lineFilter [ascii "MASK", ascii "0", ascii "4095"] ∧ number? (ascii "0") = some 0 ∧
    number? (ascii "4095") = some 4095 ∧
    Taken s0 "LINE.FILTER PAIR,0,0" .lineFilter [ascii "PAIR", ascii "0", ascii "0"] ∧
    Taken s0 "LINE.FILTER RANGE,0,0" .lineFilter [ascii "RANGE", ascii "0", ascii "0"] ∧
    Taken s0 "LINE.FILTER RANGE,4095,0" .lineFilter [ascii "RANGE", ascii "4095", ascii "0"] ∧
    Taken s0 "LINE.FILTER MASK,4096,0" .lineFilter [ascii "MASK", ascii "4096", ascii "0"] ∧
    number? (ascii "4096") = some 4096 ∧ Taken s0 "LINE.FILTER OFF" .lineFilter [ascii "OFF"] ∧
    Taken s0 "LINE.NEWS?" .lineNews [] ∧ Taken s0 "LINE.NEWS.DROP 9" .lineNewsDrop [ascii "9"] ∧
    ClampsTo 0 8 8 (ascii "9") 8 ∧ Taken s0 "LINE.AUTOTAKE ON" .lineAutotake [ascii "ON"] ∧
    Taken s0 "LINE.AUTOTAKE OFF" .lineAutotake [ascii "OFF"] ∧ Taken s0 "LINE.AUTOTAKE X" .lineAutotake [ascii "X"] := by
  refine ⟨?_, by decide, by decide, ?_, ?_, ?_, ?_, by decide, ?_, ?_, ?_, clamps_number (n := 9) (by decide) (by decide), ?_, ?_,
    ?_⟩ <;> exact given_takes _ _ _ _ _ (by decide) (by decide)

/-! #### Queries -/

theorem test_witness_PlainQueries :
    Taken s0 "SHEET.FREE?" .sheetFree [] ∧ Taken s0 "SHEET.FREE? 1" .sheetFree [ascii "1"] ∧
    Taken s0 "SYS.UPTIME?" .sysUptime [] ∧ Taken s0 "SYS.UPTIME? 1" .sysUptime [ascii "1"] ∧
    Taken s0 "EVENT.FLAGS?" .eventFlags [] ∧ Taken s0 "EVENT.FLAGS? 1" .eventFlags [ascii "1"] ∧
    Taken s0 "SYS.ID?" .sysId [] ∧ Taken s0 "SYS.ID? 1" .sysId [ascii "1"] ∧
    Taken s0 "TIME?" .timeQuery [] ∧ s0.tod = none ∧ Taken { s0 with tod := some ⟨23, 59, 59⟩ } "TIME?" .timeQuery [] ∧
    Taken s0 "TIME? 1" .timeQuery [ascii "1"] := by
  refine ⟨?_, ?_, ?_, ?_, ?_, ?_, ?_, ?_, ?_, rfl, ?_, ?_⟩ <;> exact given_takes _ _ _ _ _ (by decide) (by decide)

theorem test_witness_ListQueries :
    Taken busy "SHEET.CATALOG?" .sheetCatalog [] ∧ Taken busy "SHEET.CATALOG? 1" .sheetCatalog [ascii "1"] ∧
    Taken busy "SHEET.SELECT?" .sheetSelectQuery [] ∧ Taken busy "SHEET.SELECT? 1" .sheetSelectQuery [ascii "1"] ∧
    Taken busy "RECV.LIST?" .recvList [] ∧ Taken busy "RECV.LIST? 1" .recvList [ascii "1"] ∧
    Taken busy "SCHED.LIST?" .schedList [] ∧ Taken busy "SCHED.LIST? 1" .schedList [ascii "1"] := by
  refine ⟨?_, ?_, ?_, ?_, ?_, ?_, ?_, ?_⟩ <;> exact given_takes _ _ _ _ _ (by decide) (by decide)

theorem test_witness_RecordQueries :
    Taken busy "CHAN.STATE? 3" .chanState [ascii "3"] ∧ number? (ascii "3") = some (Chan.num .rc3) ∧
    Taken busy "CHAN.STATE? 4" .chanState [ascii "4"] ∧ (∀ ch, number? (ascii "4") ≠ some (Chan.num ch)) ∧
    Taken busy "SHEET.INFO? A" .sheetInfo [ascii "A"] ∧ sheetRef? (ascii "A") = some (.named (ascii "A")) ∧
    busy.resolve .a (.named (ascii "A")) = some 0 ∧ busy.sheet 0 = some sheetA ∧
    s0.resolve .a (.named (ascii "A")) = none ∧ Taken busy "SHEET.INFO? ALL" .sheetInfo [ascii "ALL"] ∧
    sheetRef? (ascii "ALL") = none ∧
    Taken busy "RECV.STATUS? 0" .recvStatus [ascii "0"] ∧ number? (ascii "0") = some 0 ∧
    (given busy .a "RECV.STATUS? 0").numbersWf ∧ busy.reception 0 = some recA ∧ recA.number = 0 ∧
    Taken busy "RECV.STATUS? 255" .recvStatus [ascii "255"] ∧ number? (ascii "255") = some 255 ∧
    (∀ k r, s0.reception k = some r → r.number ≠ 255) ∧
    Taken busy "RECV.STATUS? 256" .recvStatus [ascii "256"] ∧ (∀ n, n ≤ 255 → number? (ascii "256") ≠ some n) := by
  refine ⟨?_, by decide, ?_, (fun ch => by cases ch <;> decide), ?_, by decide, by decide, rfl, by decide, ?_, by decide, ?_,
    by decide, busy_numbersWf, rfl, rfl, ?_, by decide, (fun k r h => by rw [s0_reception] at h; cases h), ?_, ?_⟩
  rotate_right
  · intro n hn h
    rw [show number? (ascii "256") = some 256 by decide] at h
    have := Option.some.inj h
    omega
  all_goals exact given_takes _ _ _ _ _ (by decide) (by decide)

theorem test_witness_RowQueries :
    Taken busy "ROWS.SINCE? A,0" .rowsSince [ascii "A", ascii "0"] ∧
    Taken busy "ROWS.SINCE? A,4294967295," .rowsSince [ascii "A", ascii "4294967295", []] ∧
    Taken busy "ROWS.SINCE? A,0,31" .rowsSince [ascii "A", ascii "0", ascii "31"] ∧
    Taken busy "ROWS.SINCE? A,0,32" .rowsSince [ascii "A", ascii "0", ascii "32"] ∧
    sheetRef? (ascii "A") = some (.named (ascii "A")) ∧ busy.resolve .a (.named (ascii "A")) = some 0 ∧
    busy.sheet 0 = some sheetA ∧ sheetA.rows.length = sheetA.height ∧ number? (ascii "0") = some 0 ∧
    number? (ascii "4294967295") = some 4294967295 ∧ number? (ascii "31") = some 31 ∧ 31 < sheetA.height ∧
    number? (ascii "32") = some 32 ∧ sheetA.height ≤ 32 ∧
    Taken busy "ROWS.MAP? A,31,MAX" .rowsMap [ascii "A", ascii "31", ascii "MAX"] ∧ ClampsTo 0 16 16 (ascii "MAX") 16 ∧
    Taken busy "ROWS.MAP? A,32,0" .rowsMap [ascii "A", ascii "32", ascii "0"] ∧ ClampsTo 0 16 16 (ascii "0") 0 ∧
    Taken s0 "ROWS.SINCE? A,0" .rowsSince [ascii "A", ascii "0"] ∧ s0.resolve .a (.named (ascii "A")) = none ∧
    Taken s0 "ROWS.MAP? A,32,0" .rowsMap [ascii "A", ascii "32", ascii "0"] := by
  refine ⟨?_, ?_, ?_, ?_, by decide, by decide, rfl, by decide, by decide, by decide, by decide, by decide, by decide, by decide,
    ?_, .inr (.inl ⟨rfl, rfl⟩), ?_, clamps_number (n := 0) (by decide) (by decide), ?_, by decide, ?_⟩ <;>
    exact given_takes _ _ _ _ _ (by decide) (by decide)

/-! #### Row transfers -/

theorem test_witness_RowsReadBeginsATransfer :
    Taken busy "ROWS.READ A,0" .rowsRead [ascii "A", ascii "0"] ∧ [ascii "A", ascii "0"].length < 3 ∧
    Taken busy "ROWS.READ A,0,1,ALL,1" .rowsRead [ascii "A", ascii "0", ascii "1", ascii "ALL", ascii "1"] ∧
    Taken busy "ROWS.READ A,0,1,SOME" .rowsRead [ascii "A", ascii "0", ascii "1", ascii "SOME"] ∧
    ascii "SOME" ≠ [] ∧ ascii "SOME" ≠ ascii "ALL" ∧ ascii "SOME" ≠ ascii "FILLED" ∧
    Taken busy "ROWS.READ A,31,MAX" .rowsRead [ascii "A", ascii "31", ascii "MAX"] ∧
    Taken busy "ROWS.READ A,31,MAX," .rowsRead [ascii "A", ascii "31", ascii "MAX", []] ∧
    Taken busy "ROWS.READ A,31,MAX,ALL" .rowsRead [ascii "A", ascii "31", ascii "MAX", ascii "ALL"] ∧
    Taken busy "ROWS.READ A,32,0,FILLED" .rowsRead [ascii "A", ascii "32", ascii "0", ascii "FILLED"] ∧
    sheetRef? (ascii "A") = some (.named (ascii "A")) ∧ busy.resolve .a (.named (ascii "A")) = some 0 ∧
    busy.sheet 0 = some sheetA ∧ sheetA.state ≠ .retiring ∧ number? (ascii "31") = some 31 ∧ 31 < sheetA.height ∧
    ClampsTo 0 (sheetA.height - 31) (sheetA.height - 31) (ascii "MAX") 1 ∧ number? (ascii "32") = some 32 ∧
    sheetA.height ≤ 32 ∧ (∀ hi, ∃ n, ClampsTo 0 hi hi (ascii "MAX") n) ∧ s0.resolve .a (.named (ascii "A")) = none ∧
    Taken busy "ROWS.READ A,MAX,0" .rowsRead [ascii "A", ascii "MAX", ascii "0"] ∧ number? (ascii "MAX") = none ∧
    (busySheet { sheetA with state := .retiring }).resolve .a (.named (ascii "A")) = some 0 := by
  refine ⟨?_, by decide, ?_, ?_, by decide, by decide, by decide, ?_, ?_, ?_, ?_, by decide, by decide, rfl, by decide, by decide,
    by decide, .inr (.inl ⟨rfl, rfl⟩), by decide, by decide, (fun hi => ⟨hi, .inr (.inl ⟨rfl, rfl⟩)⟩), by decide, ?_, by decide,
    by decide⟩ <;> exact given_takes _ _ _ _ _ (by decide) (by decide)

/-- `busy` with another transfer on line A. -/
def busyTransfer (t : Transfer) : State := busy.updLine .a fun x => { x with transfer := some t }

theorem test_witness_EngineAtBoundaries :
    (busyTransfer transferA).powered = true ∧ ((busyTransfer transferA).line .a).transfer = some transferA ∧
    transferA.phase = .sending ∧ (busyTransfer transferA).sheet transferA.entry = some sheetA ∧
    transferA.pendingEnd = none ∧ transferA.next < transferA.first + transferA.count ∧ transferA.pauseRequest = false ∧
    transferA.form = .all ∧
    ({ transferA with next := 3 } : Transfer).next = transferA.first + transferA.count ∧
    ({ transferA with next := 2 } : Transfer).next < transferA.first + transferA.count ∧
    ({ transferA with pendingEnd := some .cancelled } : Transfer).pendingEnd = some .cancelled ∧
    ({ transferA with pendingEnd := some .interrupted } : Transfer).pendingEnd = some .interrupted ∧
    ({ transferA with pauseRequest := true } : Transfer).pauseRequest = true ∧
    ({ transferA with form := .filled } : Transfer).form = .filled ∧
    (∃ sp ∈ (sheetA.row 0).spans, sp.isSome) ∧ (∀ sp ∈ (sheetA.row 1).spans, sp = none) ∧
    (∀ sp ∈ (sheetA.row 2).spans, sp = none) ∧
    (let t : Transfer := { transferA with phase := .paused, single := 115200 }
     ((busyTransfer t).line .a).transfer = some t ∧ t.phase = .paused ∧ 115200 ≤ t.single ∧
      ({ t with single := 115199, cumulative := 691199 } : Transfer).cumulative < 691200) ∧
    (let t : Transfer := { transferA with phase := .ending, endsOk := true }
     ((busyTransfer t).line .a).transfer = some t ∧ t.phase = .ending ∧
      ((busyTransfer t).line .a).interp = .held ⟨[], 1⟩ ∧ ¬(sheetA.state = .retiring ∧ sheetA.readers ≤ 1)) := by decide

theorem test_witness_CharactersDuringATransfer :
    busy.awake ∧ (busy.line .a).inBreak = false ∧ (busy.line .a).transfer = some transferA ∧
    busy.sheet transferA.entry = some sheetA ∧ transferA.phase = .sending ∧ transferA.pendingEnd = none ∧
    ({ transferA with pendingEnd := some .cancelled } : Transfer).pendingEnd.isSome ∧
    ({ transferA with phase := .ending } : Transfer).phase = .ending ∧
    (let t : Transfer := { transferA with phase := .paused, next := 2 }
     ((busyTransfer t).line .a).transfer = some t ∧ t.phase = .paused ∧ t.next < t.first + t.count) := by
  unfold State.awake; decide

theorem test_witness_LayoutsOfFrames :
    ([] : List Byte).length < 65536 ∧ sheetA.name.length ≤ 12 ∧ sheetA.chart ≤ 4095 ∧ sheetA.width ≤ 2048 ∧
    sheetA.height ≤ 2048 ∧ sheetA.lpm ≤ 180 ∧ sheetA.seq ≤ 4294967295 ∧ sheetA.filledRows ≤ sheetA.height ∧
    31 + 1 ≤ sheetA.height ∧ sheetA.width % 16 = 0 ∧ (0 : Nat) < 65536 ∧ (sheetA.row 0).seq ≤ 4294967295 ∧
    (sheetA.row 0).spans.length = 8 ∧ (∀ sp ∈ (sheetA.row 0).spans, ∀ x, sp = some x → x.quality ≤ 63) ∧
    ((sheetA.row 0).spans[0]?).join = some ⟨20, .rc0, 0⟩ ∧ ((sheetA.row 0).spans[7]?).join = none ∧
    sheetA.bandOf 0 = some 0 ∧ 63 < sheetA.width / 16 := by
  refine ⟨by decide, by decide, by decide, by decide, by decide, by decide, by decide, by decide, by decide, by decide, by decide,
    by decide, by decide, ?_, by decide, by decide, by decide, by decide⟩
  intro sp hsp x hx
  subst hx
  have : (sheetA.row 0).spans = some ⟨20, .rc0, 0⟩ :: List.replicate 7 none := rfl
  rw [this] at hsp
  rcases List.mem_cons.1 hsp with h | h
  · cases h; decide
  · cases (List.eq_of_mem_replicate h)

theorem test_witness_CommandTextIsReadBack :
    keywordTable.length = 44 ∧ (ascii "ROWS.READ", false, Keyword.rowsRead) ∈ keywordTable ∧ (ascii "TIME", true, Keyword.timeQuery) ∈ keywordTable ∧
    (∀ a ∈ [ascii "SFC312", ascii "0", []], argWf a = true) ∧ [ascii "SFC312", ascii "0", []] ≠ [[]] ∧
    ascii "A.B" ≠ [] ∧ (∀ b ∈ (ascii "A.B").take 1, isLetter b = true) ∧
    (∀ b ∈ ascii "A.B", isLetter b = true ∨ b = 0x2E#8) ∧ (∀ k, (ascii "A.B", true, k) ∉ keywordTable) ∧
    isLetter (upper 0x2E#8) = false ∧ (0x2E#8 : Byte) ≠ 0x20#8 ∧ (∀ x ∈ ascii "TIME", isLetter x = true) ∧
    number? (ascii "42") = some 42 ∧ 9 < 10 := by
  refine ⟨rfl, by decide, by decide, by decide, by decide, by decide, by decide, by decide, ?_, by decide, by decide, by decide,
    by decide, by decide⟩
  intro k
  cases k <;> decide

/-! #### Invariants -/

theorem busy_step : ∃ t, step busy = .next t := ⟨_, rfl⟩

theorem test_witness_MemoryAndTablesKept : Memory.wf busy.mem ∧ busy.tablesWf ∧
    ({ busy with tod := some ⟨23, 59, 59⟩ } : State).timeWf ∧
    ∃ t, step busy = .next t ∧ busy.sheet 0 = some sheetA ∧ t.sheet 0 = some sheetA ∧ ¬busy.sentFreed t sheetA :=
  ⟨Memory.wf_nil, ⟨by decide, by decide, by decide⟩, (fun t h => by cases h; decide), _, rfl, rfl, rfl,
    fun h => nomatch h .a⟩

theorem test_witness_ChannelsAndLinesKept : busy.channelsWf ∧ busy.linesWf ∧ ∃ t, step busy = .next t := by
  refine ⟨fun ch => ?_, fun l => ?_, busy_step⟩
  · cases ch <;> refine ⟨by unfold ChanConfig.wf; decide, fun m h => ?_, by decide⟩ <;> cases h
    exact ⟨rfl, by decide, rfl⟩
  · cases l <;>
      exact ⟨by decide, by decide, by decide, List.Pairwise.nil, (show (0 : Nat) ≤ 4095 ∧ 4095 ≤ 4095 by decide)⟩

theorem test_witness_SchedulesKept :
    ({ s0 with sched := [entryAt 1 600 30 [.rc0]] } : State).schedulesWf ∧ ∃ t, step s0 = .next t := by
  refine ⟨⟨⟨by decide, by decide, List.pairwise_singleton .., List.pairwise_singleton .., List.pairwise_singleton ..⟩, ?_, ?_⟩,
    _, rfl⟩
  · intro _
    exact ⟨by decide, by decide, List.Pairwise.nil, List.Pairwise.nil, List.Pairwise.nil⟩
  · intro w h; cases h

theorem test_witness_BandsAndReadersKept : busy.bandsWf ∧ busy.readersWf ∧ ∃ t, step busy = .next t :=
  ⟨busy_bandsWf, busy_readersWf, busy_step⟩

theorem test_witness_ReceptionsAndSheetsKept : (busy.tablesWf ∧ busy.sheetsWf ∧ busy.bandsWf ∧ busy.readersWf ∧
    busy.numbersWf ∧ busy.membersWf ∧ busy.writersWf) ∧ ∃ t, step busy = .next t :=
  ⟨⟨⟨by decide, by decide, by decide⟩, busy_sheetsWf, busy_bandsWf, busy_readersWf, busy_numbersWf, busy_membersWf,
    busy_writersWf⟩, busy_step⟩

end Sys2Proof.Tests
end

section
/-! The family of 02_phasing_and_line_timing.md: what the manager does with a state notice, a lock report and a period
report, branch by branch, and the arithmetic of the learned drift (R25 to R37, R113). -/

namespace Sys2Proof.Machine

/-! ### The drift of a lock run (R28 to R30) -/

/-- The excess `delta` over the nominal spread `d` in parts per million, rounded half away from zero and not yet clamped. -/
def roundedPpm (delta : Int) (d : Nat) : Int :=
  if 0 ≤ delta then (2 * delta * 1000000 + d) / (2 * d) else -((2 * -delta * 1000000 + d) / (2 * d))

/-- The magnitude that `learnedDrift` rounds among the naturals, as an integer. -/
theorem natCast_half_up (d : Nat) {a : Int} (ha : 0 ≤ a) :
    (((2 * a.toNat * 1000000 + d) / (2 * d) : Nat) : Int) = (2 * a * 1000000 + d) / (2 * d) := by
  simp only [Int.natCast_ediv, Int.natCast_add, Int.natCast_mul, Int.toNat_of_nonneg ha, Int.cast_ofNat_Int]

/-- The learned drift is the rounded excess, clamped to -300..+300 (R28). -/
theorem learnedDrift_eq (delta : Int) (d : Nat) :
    learnedDrift delta d =
      if roundedPpm delta d < -300 then -300 else if 300 < roundedPpm delta d then 300 else roundedPpm delta d := by
  have hround : learnedDrift delta d = clampInt (-300) 300 (roundedPpm delta d) := by
    unfold learnedDrift roundedPpm
    split
    · next h => rw [natCast_half_up d h]
    · next h => rw [natCast_half_up d (show 0 ≤ -delta by omega)]
  rw [hround, clampInt]
  omega

/-- For `c = 2b`, the quotient of `c + d` by `2d` is a nearest integer to `b / d`. -/
theorem near_of_half_up {b c : Int} {d : Nat} (hd : 0 < d) (hc : c = 2 * b) :
    2 * ((c + d) / (2 * d) * d - b) ≤ d ∧ 2 * (b - (c + d) / (2 * d) * d) ≤ d := by
  have hpos : (0 : Int) < 2 * d := by omega
  have hlow := Int.ediv_mul_le (c + d) (Int.ne_of_gt hpos)
  have hhigh := Int.lt_ediv_add_one_mul_self (c + d) hpos
  rw [Int.add_mul, Int.one_mul] at hhigh
  rw [Int.mul_left_comm] at hlow hhigh
  omega

/-- Rounding moves the excess by half a part per million at most. -/
theorem roundedPpm_near (delta : Int) {d : Nat} (hd : 0 < d) :
    2 * (roundedPpm delta d * d - delta * 1000000) ≤ d ∧ 2 * (delta * 1000000 - roundedPpm delta d * d) ≤ d := by
  unfold roundedPpm
  split
  · exact near_of_half_up hd (by omega)
  · obtain ⟨hlow, hhigh⟩ := near_of_half_up (b := -delta * 1000000) (c := 2 * -delta * 1000000) hd (by omega)
    rw [Int.neg_mul]
    omega

/-- The drift that a LEARN reception takes from a lock run whose ends are known (R28). -/
theorem lockDrift_learn {run : List Nat} {first last : Nat} (p : Nat) (hfirst : run.head? = some first)
    (hlast : run.getLast? = some last) :
    lockDrift .learn p run = learnedDrift ((last : Int) - first - ((run.length - 1) * p : Nat)) ((run.length - 1) * p) := by
  simp [lockDrift, hfirst, hlast]

/-- A drift within the clamp leaves the factor `1,000,000 + d` positive, so the period is the floor of R30. -/
theorem effectivePeriod_cast (p : Nat) {d : Int} (hd : -300 ≤ d) :
    (effectivePeriod p d : Int) = (p : Int) * 256 * (1000000 + d) / 1000000 := by
  have hbase : ((1000000 + d).toNat : Int) = 1000000 + d := Int.toNat_of_nonneg (by omega)
  simp only [effectivePeriod, Config.fine, Int.natCast_ediv, Int.natCast_mul, hbase, Int.cast_ofNat_Int]

/-- What a lock run sets: the drift and effective period of its reception, and its last marker as the reference. -/
theorem lockTiming_eq (r : Reception) {run : List Nat} {last : Nat} (hlast : run.getLast? = some last) :
    lockTiming r run = .locked (lockDrift r.drift (nominalPeriod r.lpm) run)
      (effectivePeriod (nominalPeriod r.lpm) (lockDrift r.drift (nominalPeriod r.lpm) run)) (last * 256) := by
  simp [lockTiming, hlast, Config.fine]

/-- Settles O11: the drift is `learnedDrift` of the run's excess, or the fixed value. -/
theorem lockRunSetsTheTiming : Obligations.LockRunSetsTheTiming := by
  intro r run first last hlen hfirst hlast hp p nominal delta rounded
  have hnominal : 0 < nominal := Nat.mul_pos (by omega) hp
  refine ⟨_, _, lockTiming_eq r hlast, fun hlearn => ⟨?_, roundedPpm_near delta hnominal⟩, fun v hfixed => ?_,
    fun hd _ => effectivePeriod_cast p hd⟩
  · rw [hlearn, lockDrift_learn _ hfirst hlast]
    exact learnedDrift_eq delta nominal
  · rw [hfixed]; rfl

/-! ### Whom the manager listens to -/

/-- What `openMember_some` gives is also enough. -/
theorem State.openMember_eq_some_iff (s : State) {n : Nat} {ch : Chan} {k : Nat} {r : Reception} {m : Member} :
    s.openMember n ch = some (k, r, m) ↔
      s.findRec n = some k ∧ s.reception k = some r ∧ r.isOpen = true ∧ r.memberOf ch = some m ∧ m.cause = none := by
  constructor
  · intro h
    obtain ⟨hfind, hrec, -, hopen, hmem, -, -, hcause⟩ := s.openMember_some h
    exact ⟨hfind, hrec, hopen, hmem, hcause⟩
  · rintro ⟨hfind, hrec, hopen, hmem, hcause⟩
    simp [State.openMember, hfind, hrec, hopen, hmem, Member.active, hcause]

/-- Which members are active is in the records; a change of a channel does not touch it. -/
@[simp] theorem State.openMember_updChan (s : State) (d ch : Chan) (f : Channel → Channel) (n : Nat) :
    (s.updChan d f).openMember n ch = s.openMember n ch := rfl

theorem Reception.activeChans_contains (r : Reception) (ch : Chan) :
    r.activeChans.contains ch = r.members.any fun y => y.chan = ch ∧ y.cause = none := by
  rw [Bool.eq_iff_iff]
  simp [Reception.activeChans, Member.active, and_comm, and_left_comm]

/-! ### State notices (R113) -/

section
variable {s : State} {ch : Chan} {n : StateNotice}

theorem exec_stateNotice_of_front {rest : List StateNotice} (hp : s.powered = true)
    (hq : (s.chan ch).stateNotices = n :: rest) :
    exec (.stateNotice ch) s = .next ((s.updChan ch fun c => { c with stateNotices := rest }).noteState ch n) := by
  change execStateNotice ch s = _
  simp [execStateNotice, hp, hq]

theorem State.noteState_of_none (h : s.openMember n.reception ch = none) : s.noteState ch n = s := by
  simp [State.noteState, h]

theorem State.noteState_of_some {k : Nat} {r : Reception} {m : Member}
    (h : s.openMember n.reception ch = some (k, r, m)) :
    s.noteState ch n =
      if m.mirror = .imaging then s else s.updRec k fun x => x.updMember ch fun y => { y with mirror := n.mirror } := by
  simp [State.noteState, h]

end

/-! ### Lock reports (R27, R31) -/

/-- The LOCKED notice goes to the active members and to no other channel (R31). -/
theorem State.sendLocked_eq (s : State) (r : Reception) (peff ref : Nat) :
    s.sendLocked r peff ref = s.mapChans fun dest c =>
      if (r.members.any fun y => y.chan = dest ∧ y.cause = none) then
        { c with lockedNotices := c.lockedNotices ++ [⟨r.number, ref, peff⟩] }
      else c := by
  simp only [State.sendLocked, Reception.activeChans_contains]

section
variable {s : State} {ch : Chan} {n : LockReport}

theorem exec_lockReport_of_front {rest : List LockReport} (hp : s.powered = true)
    (hq : (s.chan ch).lockReports = n :: rest) :
    exec (.lockReport ch) s = .next ((s.updChan ch fun c => { c with lockReports := rest }).noteLock ch n) := by
  change execLockReport ch s = _
  simp [execLockReport, hp, hq]

theorem State.noteLock_of_none (h : s.openMember n.reception ch = none) : s.noteLock ch n = s := by
  simp [State.noteLock, h]

/-- Once a reception has its timing, a lock report changes nothing (R27). -/
theorem State.noteLock_of_timed {k : Nat} {r : Reception} {m : Member}
    (h : s.openMember n.reception ch = some (k, r, m)) (ht : r.timing ≠ .untimed) : s.noteLock ch n = s := by
  cases hr : r.timing with
  | untimed => exact absurd hr ht
  | locked | anchored => simp [State.noteLock, h, hr]

/-- The first lock report sets the timing and sends the LOCKED notices (R27, R31). -/
theorem State.noteLock_of_untimed {k : Nat} {r : Reception} {m : Member} {d : Int} {peff ref : Nat}
    (h : s.openMember n.reception ch = some (k, r, m)) (ht : r.timing = .untimed)
    (hlock : lockTiming r n.run = .locked d peff ref) :
    s.noteLock ch n = (s.updRec k fun x => { x with timing := .locked d peff ref }).sendLocked r peff ref := by
  simp [State.noteLock, h, ht, hlock]

end

/-- Settles O20: a state notice and a lock report each act on the entry that `openMember` finds, or on nothing. -/
theorem stateNoticeAndLockReport : Obligations.StateNoticeAndLockReport := by
  refine ⟨fun s n ch k r m => s.openMember_eq_some_iff, ?_, ?_⟩
  · intro ch s n rest hp hq took
    have hsame : took.openMember n.reception ch = s.openMember n.reception ch := s.openMember_updChan ..
    rw [exec_stateNotice_of_front hp hq, ← hsame]
    exact ⟨fun hnone => congrArg _ (State.noteState_of_none hnone),
      fun k r m hsome => congrArg _ (State.noteState_of_some hsome)⟩
  · intro ch s n rest hp hq took
    have hsame : took.openMember n.reception ch = s.openMember n.reception ch := s.openMember_updChan ..
    rw [exec_lockReport_of_front hp hq, ← hsame]
    exact ⟨fun hnone => congrArg _ (State.noteLock_of_none hnone), fun k r m hsome =>
      ⟨fun ht => congrArg _ (State.noteLock_of_timed hsome ht), fun d peff ref ht hlock =>
        congrArg _ ((State.noteLock_of_untimed hsome ht hlock).trans (State.sendLocked_eq ..))⟩⟩

/-! ### Period reports (R33 to R37) -/

/-- The conditions of anchoring, in R34's words. -/
theorem anchors_iff (mark : Option Bool) (n : PeriodReport) :
    anchors mark n = true ↔ mark = some true ∧ n.carrier = true ∧ n.marker = false := by
  simp [anchors, and_assoc]

/-- The conditions on a report that borrows timing, in R37's words. -/
theorem borrows_iff (n : PeriodReport) :
    borrows n = true ↔ n.carrier = true ∧ n.marker = false ∧ n.tone = false := by
  simp [borrows, and_assoc]

/-- The anchor begins a whole number of periods after the reference, so starts compare as period numbers do (R37). -/
theorem period_start_le_iff {peff : Nat} (hpeff : 0 < peff) (ref m0 i : Nat) :
    ref + m0 * peff ≤ ref + i * peff ↔ m0 ≤ i := by
  rw [Nat.add_le_add_iff_left, Nat.mul_le_mul_right_iff hpeff]

/-- A period's distance from the anchor, in whole periods, is the row that R37 assigns. -/
theorem periods_from_anchor {peff : Nat} (hpeff : 0 < peff) (ref m0 i : Nat) :
    (ref + i * peff - (ref + m0 * peff)) / peff = i - m0 := by
  rw [Nat.add_sub_add_left, ← Nat.sub_mul, Nat.mul_div_cancel _ hpeff]

section
variable {s : State} {ch : Chan} {n : PeriodReport}

theorem exec_periodReport_of_front {rest : List PeriodReport} (hp : s.powered = true)
    (hq : (s.chan ch).periodReports = n :: rest) :
    exec (.periodReport ch) s = .next ((s.updChan ch fun c => { c with periodReports := rest }).notePeriod ch n) := by
  change execPeriodReport ch s = _
  simp [execPeriodReport, hp, hq]

theorem State.notePeriod_of_none (h : s.openMember n.reception ch = none) : s.notePeriod ch n = s := by
  simp [State.notePeriod, h]

/-- A sender that has entered IMAGING needs no row (R33). -/
theorem State.notePeriod_of_imaging {k : Nat} {r : Reception} {m : Member}
    (h : s.openMember n.reception ch = some (k, r, m)) (hm : m.mirror = .imaging) : s.notePeriod ch n = s := by
  simp [State.notePeriod, h, hm]

/-- On a LOCKED reception a report anchors or marks (R33 to R35). -/
theorem State.notePeriod_of_locked {k : Nat} {r : Reception} {m : Member} {d : Int} {peff ref : Nat}
    (h : s.openMember n.reception ch = some (k, r, m)) (hm : m.mirror ≠ .imaging) (ht : r.timing = .locked d peff ref) :
    s.notePeriod ch n =
      if m.mark = some true ∧ n.carrier = true ∧ n.marker = false then
        (s.updRec k fun x => { x with timing := .anchored d peff ref (ref + n.period * peff) }).assignRow
          k ch r.number 0 (ref + n.period * peff)
      else s.setMark k ch n.marker := by
  simp [State.notePeriod, h, hm, ht, anchors_iff]

/-- On an ANCHORED reception a report borrows the timing or marks (R36, R37). -/
theorem State.notePeriod_of_anchored {k : Nat} {r : Reception} {m : Member} {d : Int} {peff ref m0 : Nat}
    (h : s.openMember n.reception ch = some (k, r, m)) (hm : m.mirror ≠ .imaging) (hpeff : 0 < peff)
    (ht : r.timing = .anchored d peff ref (ref + m0 * peff)) :
    s.notePeriod ch n =
      if m0 ≤ n.period ∧ n.carrier = true ∧ n.marker = false ∧ n.tone = false then
        s.assignRow k ch r.number (n.period - m0) (ref + n.period * peff)
      else s.setMark k ch n.marker := by
  simp only [State.notePeriod, h, hm, ht, if_false, period_start_le_iff hpeff, periods_from_anchor hpeff, borrows_iff]

end

/-- Settles O21, by the sender's mirror and then the reception's timing; a borrowed row counts whole periods from the
anchor. -/
theorem periodReportAnchorsOrBorrows : Obligations.PeriodReportAnchorsOrBorrows := by
  intro ch s n rest hp hq took assign marked
  have hsame : took.openMember n.reception ch = s.openMember n.reception ch := s.openMember_updChan ..
  rw [exec_periodReport_of_front hp hq, ← hsame]
  exact ⟨fun hnone => congrArg _ (State.notePeriod_of_none hnone), fun k r m hsome =>
    ⟨fun hm => congrArg _ (State.notePeriod_of_imaging hsome hm),
      fun d peff ref hm ht => congrArg _ (State.notePeriod_of_locked hsome hm ht),
      fun d peff ref m0 hm hpeff ht => congrArg _ (State.notePeriod_of_anchored hsome hm hpeff ht)⟩⟩

end Sys2Proof.Machine
end

section
/-! The family of 03_picture_conversion_and_span_quality.md: the gray level of a frequency (R43) and the quality of a span
(R45 to R49). -/

namespace Sys2Proof.Machine

/-! ### Gray levels (R43) -/

section
variable {cfg : ChanConfig}

/-- Cutting a frequency off at the tones makes the three cases of R43 one: rounding gives 0 at black and 15 at white. -/
theorem grayLevel_eq_round (h : cfg.black < cfg.white) (f : Nat) :
    grayLevel cfg f =
      (30 * (min f cfg.white - cfg.black) + (cfg.white - cfg.black)) / (2 * (cfg.white - cfg.black)) := by
  have hd : 0 < 2 * (cfg.white - cfg.black) := by omega
  unfold grayLevel
  split
  · next hlow =>
    rw [Nat.min_eq_left (by omega), Nat.sub_eq_zero_of_le hlow, Nat.div_eq_of_lt (by omega)]
  · split
    · next hhigh =>
      rw [Nat.min_eq_right hhigh, eq_comm, Nat.div_eq_iff hd]
      omega
    · rw [Nat.min_eq_left (by omega)]

theorem grayLevel_of_le_black {f : Nat} (h : f ≤ cfg.black) : grayLevel cfg f = 0 := if_pos h

theorem grayLevel_of_white_le {f : Nat} (htones : cfg.black < cfg.white) (h : cfg.white ≤ f) : grayLevel cfg f = 15 := by
  simp [grayLevel, h, show ¬f ≤ cfg.black by omega]

theorem grayLevel_between {f : Nat} (hlow : cfg.black < f) (hhigh : f < cfg.white) :
    grayLevel cfg f = (30 * (f - cfg.black) + (cfg.white - cfg.black)) / (2 * (cfg.white - cfg.black)) := by
  simp [grayLevel, Nat.not_le.2 hlow, Nat.not_le.2 hhigh]

theorem grayLevel_mono (h : cfg.black < cfg.white) {f g : Nat} (hfg : f ≤ g) : grayLevel cfg f ≤ grayLevel cfg g := by
  rw [grayLevel_eq_round h, grayLevel_eq_round h]
  exact Nat.div_le_div_right (by omega)

/-- Each of the sixteen gray levels is taken, at `k` fifteenths of the way from black to white: the tones are 30 Hz or more
apart, so that cutting the fifteenths down to whole hertz stays within half a level. -/
theorem grayLevel_surjective (h : cfg.black + 30 ≤ cfg.white) {k : Nat} (hk : k ≤ 15) :
    ∃ f, cfg.black ≤ f ∧ f ≤ cfg.white ∧ grayLevel cfg f = k := by
  obtain ⟨d, hwhite⟩ := Nat.exists_eq_add_of_le (Nat.le_of_add_right_le h)
  have hkd : k * d ≤ 15 * d := Nat.mul_le_mul_right d hk
  refine ⟨cfg.black + k * d / 15, by omega, by omega, ?_⟩
  rw [grayLevel_eq_round (by omega), Nat.div_eq_iff (by omega), Nat.min_eq_left (by omega), hwhite,
    Nat.add_sub_cancel_left, Nat.add_sub_cancel_left, Nat.mul_left_comm]
  omega

end

/-- Settles O8: between the tones the level is the quotient of R43, and the half-way case goes up because half the distance
of two levels is added before dividing. -/
theorem grayLevelOfFrequency : Obligations.GrayLevelOfFrequency := by
  intro cfg hapart _
  refine ⟨fun f => grayLevel_of_le_black, fun f => grayLevel_of_white_le (by omega), fun f hlow hhigh => ?_,
    fun f g => grayLevel_mono (by omega), fun k => grayLevel_surjective (by omega), fun hnorm f => by simp [storedGray, hnorm]⟩
  rw [grayLevel_between hlow hhigh]
  exact ⟨rfl, Nat.mul_div_le .., Nat.lt_mul_div_succ _ (by omega)⟩

/-! ### Strikes and span quality (R45 to R49) -/

theorem isStrike_iff (cfg : ChanConfig) (f : Nat) :
    isStrike cfg f = true ↔ (f : Int) < cfg.black - 100 ∨ (f : Int) > cfg.white + 100 := by
  simp only [isStrike, Bool.or_eq_true, decide_eq_true_eq]
  omega

/-- The ends of the estimator's range are strikes whatever the tones (R2, R21). -/
theorem isStrike_at_range_ends {cfg : ChanConfig} (h : cfg.wf) : isStrike cfg 0 = true ∧ isStrike cfg 4800 = true := by
  obtain ⟨hblack, hwhite, -⟩ := h
  rw [isStrike_iff, isStrike_iff]
  omega

theorem sum_env_le {xs : List Sample} {m : Nat} (h : ∀ x ∈ xs, x.env ≤ m) :
    (xs.map Sample.env).sum ≤ xs.length * m := by
  induction xs with
  | nil => exact Nat.zero_le _
  | cons x xs ih =>
    obtain ⟨hx, hxs⟩ := List.forall_mem_cons.1 h
    rw [List.map_cons, List.sum_cons, List.length_cons, Nat.succ_mul, Nat.add_comm]
    exact Nat.add_le_add (ih hxs) hx

theorem meanEnvelope_le {xs : List Sample} {m : Nat} (h : ∀ x ∈ xs, x.env ≤ m) : meanEnvelope xs ≤ m :=
  Nat.div_le_of_le_mul (sum_env_le h)

theorem strikePenalty_le {k n : Nat} (h : k ≤ n) : strikePenalty k n ≤ 128 :=
  Nat.div_le_of_le_mul (Nat.mul_le_mul_right 128 h)

/-- An envelope an estimator can give is never cut off at 63: only the clamp at 0 acts (R49). -/
theorem spanQuality_cast {a : Nat} (pen : Nat) (h : a ≤ 32767) :
    (spanQuality a pen : Int) = max 0 ((a : Int) / 512 - pen) := by
  unfold spanQuality
  omega

/-- Cutting a list into `n` runs of `d` elements and putting them together gives back its first `n * d` elements. -/
theorem flatMap_runs {α : Type} (d : Nat) (xs : List α) (n : Nat) :
    (List.range n).flatMap (fun k => (xs.drop (k * d)).take d) = xs.take (n * d) := by
  induction n with
  | zero => simp
  | succ n ih => rw [List.range_succ, List.flatMap_append, ih, Nat.succ_mul, List.take_add]; simp

/-- The eight spans cut a row without gap or overlap (R46). -/
theorem flatMap_spanElements {α : Type} {w : Nat} {xs : List α} (hlen : xs.length = w) (h8 : w % 8 = 0) :
    (List.range 8).flatMap (fun k => spanElements w k xs) = xs := by
  have hw : xs.length ≤ 8 * (w / 8) := by omega
  unfold spanElements
  rw [flatMap_runs, List.take_of_length_le hw]

theorem length_spanElements {α : Type} {w k : Nat} {xs : List α} (hlen : xs.length = w) (hk : k < 8) :
    (spanElements w k xs).length = w / 8 := by
  have hkw : (k + 1) * (w / 8) ≤ 8 * (w / 8) := Nat.mul_le_mul_right _ hk
  rw [Nat.succ_mul] at hkw
  simp only [spanElements, List.length_take, List.length_drop]
  omega

end Sys2Proof.Machine

namespace Sys2Proof

open Machine

/-- Settles O10: the quality is the mean envelope's step of 512 less the penalty, and the clamp at 63 never acts. -/
theorem spanQuality : Obligations.SpanQuality := by
  refine ⟨isStrike_iff, fun cfg => isStrike_at_range_ends, fun cfg xs _ henv => ?_, fun w xs hlen h8 =>
    ⟨flatMap_spanElements hlen h8, fun k => length_spanElements hlen⟩⟩
  have hmean : meanEnvelope xs ≤ 32767 := meanEnvelope_le henv
  exact ⟨hmean, strikePenalty_le List.countP_le_length, Nat.min_le_right _ _, spanQuality_cast _ hmean⟩

end Sys2Proof
end

section
/-! The merge (R53, R63 to R65, R67 to R70, R85): what the band memory reads as once spans are written, which spans of a record
are to be stored, and what that does to the row, the sheet and the state. -/

namespace Sys2Proof.Machine

/-! ### Reading after a write -/

/-- A written byte reads back. -/
theorem Memory.read_write_inside (m : Memory) (a : Nat) {bs : List Byte} {i : Nat} (h : i < bs.length) :
    (m.write a bs).read (a + i) = bs[i] := by
  have hbelow : ∀ c ∈ m.filter (fun c => decide (c.1 < a)), c.1 ≠ a + i := fun c hc => by
    have := of_decide_eq_true (List.mem_filter.1 hc).2
    omega
  have habove : ∀ c ∈ m.filter (fun c => decide (a + bs.length ≤ c.1)), c.1 ≠ a + i := fun c hc => by
    have := of_decide_eq_true (List.mem_filter.1 hc).2
    omega
  rw [Memory.write, Memory.read_append_left habove, Memory.read_append_of_absent hbelow, Memory.read_cells bs a i h]

/-- A byte outside the run written reads as before. -/
theorem Memory.read_write_outside (m : Memory) (a : Nat) (bs : List Byte) {x : Nat} (h : x < a ∨ a + bs.length ≤ x) :
    (m.write a bs).read x = m.read x := by
  have hcells : ∀ c ∈ Memory.cells a bs, c.1 ≠ x := fun c hc => by
    obtain ⟨hlow, hhigh, -⟩ := Memory.cells_address bs a c hc
    omega
  rcases h with hlow | hhigh
  · have habove : ∀ c ∈ m.filter (fun c => decide (a + bs.length ≤ c.1)), c.1 ≠ x := fun c hc => by
      have := of_decide_eq_true (List.mem_filter.1 hc).2
      omega
    rw [Memory.write, Memory.read_append_left habove, Memory.read_append_left hcells,
      Memory.read_filter _ _ _ fun _ => decide_eq_true hlow]
  · have hbelow : ∀ c ∈ m.filter (fun c => decide (c.1 < a)), c.1 ≠ x := fun c hc => by
      have := of_decide_eq_true (List.mem_filter.1 hc).2
      omega
    rw [Memory.write, List.append_assoc, Memory.read_append_of_absent hbelow, Memory.read_append_of_absent hcells,
      Memory.read_filter _ _ _ fun _ => decide_eq_true hhigh]

/-! ### The bytes of a record's spans -/

theorem length_packGrays (xs : List Nat) : (packGrays xs).length = (xs.length + 1) / 2 := by
  induction xs using packGrays.induct with
  | case1 x y rest ih => simp only [packGrays, List.length_cons, ih]; omega
  | case2 x => simp [packGrays]
  | case3 => rfl

theorem getElem?_packGrays (xs : List Nat) (j : Nat) (h : 2 * j + 1 < xs.length) :
    (packGrays xs)[j]? = some (BitVec.ofNat 8 (xs[2 * j]?.getD 0 % 16 * 16 + xs[2 * j + 1]?.getD 0 % 16)) := by
  induction xs using packGrays.induct generalizing j with
  | case1 x y rest ih =>
    cases j with
    | zero => simp [packGrays]
    | succ j => simpa [packGrays, Nat.mul_succ] using ih j (by simp only [List.length_cons] at h; omega)
  | case2 x => simp at h
  | case3 => simp at h

section
variable {r : LineRecord}

theorem LineRecord.length_spanBytes_le (h16 : 16 ∣ r.width) (k : Nat) : (r.spanBytes k).length ≤ r.width / 16 := by
  rw [LineRecord.spanBytes, length_packGrays, List.length_take]
  omega

/-- The elements of span `k` in a record that has all of its elements. -/
theorem LineRecord.getElem?_spanBytes (h16 : 16 ∣ r.width) (hlen : r.grays.length = r.width) {k j : Nat} (hk : k < 8)
    (hj : j < r.width / 16) :
    (r.spanBytes k)[j]? = some (BitVec.ofNat 8 (r.grays[k * (r.width / 8) + 2 * j]?.getD 0 % 16 * 16 +
      r.grays[k * (r.width / 8) + 2 * j + 1]?.getD 0 % 16)) := by
  have hspan : (k + 1) * (r.width / 8) ≤ 8 * (r.width / 8) := Nat.mul_le_mul_right _ hk
  rw [Nat.succ_mul] at hspan
  have hfits : 2 * j + 1 < ((r.grays.drop (k * (r.width / 8))).take (r.width / 8)).length := by
    rw [List.length_take, List.length_drop]
    omega
  rw [LineRecord.spanBytes, getElem?_packGrays _ _ hfits, List.getElem?_take_of_lt (by omega),
    List.getElem?_take_of_lt (by omega), List.getElem?_drop, List.getElem?_drop, Nat.add_assoc]

/-! ### Writing the elements -/

theorem bandAddress_add (b n x j : Nat) : bandAddress b n (x + j) = bandAddress b n x + j :=
  (Nat.add_assoc ..).symm

/-- A byte in no place of a span to be stored reads as before. -/
theorem writeElements_read_outside (h16 : 16 ∣ r.width) (b : Nat) (store : List Bool) (k₀ : Nat) (m : Memory) {x : Nat}
    (h : ∀ k j, store[k]? = some true → j < r.width / 16 → x ≠ bandAddress b r.row ((k₀ + k) * (r.width / 16) + j)) :
    (writeElements r b k₀ store m).read x = m.read x := by
  induction store generalizing k₀ m with
  | nil => rfl
  | cons st rest ih =>
    have hrest : ∀ k j, rest[k]? = some true → j < r.width / 16 →
        x ≠ bandAddress b r.row ((k₀ + 1 + k) * (r.width / 16) + j) := fun k j hk hj => by
      have := h (k + 1) j hk hj
      rwa [← Nat.add_assoc, Nat.add_right_comm] at this
    cases st with
    | false => exact ih (k₀ + 1) m hrest
    | true =>
      have hle := LineRecord.length_spanBytes_le h16 k₀
      have hout : x < bandAddress b r.row (k₀ * (r.width / 16)) ∨
          bandAddress b r.row (k₀ * (r.width / 16)) + (r.spanBytes k₀).length ≤ x := by
        refine Decidable.byContradiction fun hin => ?_
        refine h 0 (x - bandAddress b r.row (k₀ * (r.width / 16))) rfl (by omega) ?_
        simp only [bandAddress, Nat.add_zero] at hin ⊢
        omega
      exact (ih (k₀ + 1) _ hrest).trans (Memory.read_write_outside _ _ _ hout)

/-- The bytes of a span to be stored read back: the spans written after it lie above it. -/
theorem writeElements_read_inside (h16 : 16 ∣ r.width) (b : Nat) (store : List Bool) (k₀ : Nat) (m : Memory) {k j : Nat}
    {v : Byte} (hk : store[k]? = some true) (hv : (r.spanBytes (k₀ + k))[j]? = some v) :
    (writeElements r b k₀ store m).read (bandAddress b r.row ((k₀ + k) * (r.width / 16) + j)) = v := by
  induction store generalizing k₀ m k with
  | nil => cases hk
  | cons st rest ih =>
    cases k with
    | succ k =>
      rw [← Nat.add_assoc, Nat.add_right_comm] at hv ⊢
      cases st <;> exact ih (k₀ + 1) _ hk hv
    | zero =>
      obtain rfl : st = true := by simpa using hk
      rw [Nat.add_zero] at hv ⊢
      obtain ⟨hj, hv⟩ := List.getElem?_eq_some_iff.1 hv
      have hle := LineRecord.length_spanBytes_le h16 k₀
      have hlater : ∀ k i, rest[k]? = some true → i < r.width / 16 → bandAddress b r.row (k₀ * (r.width / 16) + j) ≠
          bandAddress b r.row ((k₀ + 1 + k) * (r.width / 16) + i) := fun k i _ _ => by
        have hspan : (k₀ + 1) * (r.width / 16) ≤ (k₀ + 1 + k) * (r.width / 16) := Nat.mul_le_mul_right _ (by omega)
        rw [Nat.succ_mul] at hspan
        simp only [bandAddress]
        omega
      rw [writeElements, writeElements_read_outside h16 b rest (k₀ + 1) _ hlater, bandAddress_add,
        Memory.read_write_inside _ _ hj, hv]

/-- The elements of a stored span, each byte in its place of the row (R65, R68). -/
theorem writeElements_read_stored (h16 : 16 ∣ r.width) (hlen : r.grays.length = r.width) (b : Nat) {store : List Bool}
    (m : Memory) {k j : Nat} (hst : store[k]? = some true) (hk : k < 8) (hj : j < r.width / 16) :
    (writeElements r b 0 store m).read (bandAddress b r.row (k * (r.width / 16) + j)) =
      BitVec.ofNat 8 (r.grays[k * (r.width / 8) + 2 * j]?.getD 0 % 16 * 16 +
        r.grays[k * (r.width / 8) + 2 * j + 1]?.getD 0 % 16) := by
  have hread := writeElements_read_inside h16 b store 0 m (j := j) hst
    (by rw [Nat.zero_add]; exact LineRecord.getElem?_spanBytes h16 hlen hk hj)
  rwa [Nat.zero_add] at hread

end

/-! ### Which spans are to be stored (R53, R64) -/

/-- Span `k` of the request's record is to be stored over what the row `old` holds. -/
def MergeRequest.Stores (q : MergeRequest) (old : RowEntry) (k : Nat) : Prop :=
  ∃ g, q.record.quals[k]? = some g ∧ q.qmin ≤ g ∧ ∀ sp, old.spans[k]? = some (some sp) → sp.quality + q.margin ≤ g

theorem storesSpan_iff (qmin margin g : Nat) (stored : Option Span) :
    storesSpan qmin margin g stored = true ↔ qmin ≤ g ∧ ∀ sp, stored = some sp → sp.quality + margin ≤ g := by
  cases stored <;> simp [storesSpan]

theorem getElem?_storedSpans_iff {q : MergeRequest} {old : RowEntry} (hspans : old.spans.length = 8) (k : Nat) :
    (storedSpans q.qmin q.margin q.record.quals old)[k]? = some true ↔ k < 8 ∧ q.Stores old k := by
  by_cases hk : k < old.spans.length
  · simp [storedSpans, MergeRequest.Stores, List.getElem?_zipWith_eq_some, List.getElem?_eq_getElem hk, storesSpan_iff,
      hspans ▸ hk]
  · have hnone : old.spans[k]? = none := List.getElem?_eq_none (Nat.le_of_not_lt hk)
    simp [storedSpans, List.getElem?_zipWith_eq_some, hnone, hspans ▸ hk]

theorem any_storedSpans_iff {q : MergeRequest} {old : RowEntry} (hspans : old.spans.length = 8) :
    (storedSpans q.qmin q.margin q.record.quals old).any id = true ↔ ∃ k, k < 8 ∧ q.Stores old k := by
  simp only [List.any_eq_true, id_eq, exists_eq_right, List.mem_iff_getElem?, getElem?_storedSpans_iff hspans]

/-! ### The row after a merge (R68) -/

section
variable (r : LineRecord)

theorem getElem?_writeSpans_stored {store : List Bool} {quals : List Nat} {old : List (Option Span)} {k g : Nat}
    (hst : store[k]? = some true) (hg : quals[k]? = some g) (hk : k < old.length) :
    (writeSpans r store quals old)[k]? = some (some ⟨g, r.chan, r.reception⟩) := by
  induction store generalizing quals old k with
  | nil => cases hst
  | cons st store ih =>
    obtain _ | ⟨g₀, quals⟩ := quals
    · cases hg
    obtain _ | ⟨o, old⟩ := old
    · cases hk
    cases k with
    | zero => simp_all [writeSpans]
    | succ k => exact ih hst hg (Nat.lt_of_succ_lt_succ hk)

theorem getElem?_writeSpans_kept {store : List Bool} (quals : List Nat) (old : List (Option Span)) {k : Nat}
    (hst : store[k]? ≠ some true) : (writeSpans r store quals old)[k]? = old[k]? := by
  induction store generalizing quals old k with
  | nil => rfl
  | cons st store ih =>
    obtain _ | ⟨g₀, quals⟩ := quals
    · rfl
    obtain _ | ⟨o, old⟩ := old
    · rfl
    cases k with
    | zero => simp_all [writeSpans]
    | succ k => exact ih quals old hst

/-! ### The sheet after a merge (R65, R69, R70) -/

variable {r} (sh : Sheet) (store : List Bool)

theorem countUp_eq_ite (n : Nat) : countUp n = if n < 4294967295 then n + 1 else 4294967295 := by
  unfold countUp Config.maxCount32
  split <;> omega

theorem Sheet.merged_row_self (h : r.row < sh.rows.length) :
    (sh.merged r store).row r.row = ⟨countUp sh.seq, writeSpans r store r.quals (sh.row r.row).spans⟩ := by
  simp [Sheet.merged, Sheet.row, h]

theorem Sheet.merged_row_ne {n : Nat} (h : n ≠ r.row) : (sh.merged r store).row n = sh.row n := by
  simp [Sheet.merged, Sheet.row, h.symm]

theorem Sheet.merged_eq :
    sh.merged r store = { sh with
      seq := countUp sh.seq, rows := (sh.merged r store).rows,
      filledRows := if ∀ sp ∈ (sh.row r.row).spans, sp = none then sh.filledRows + 1 else sh.filledRows } := by
  simp [Sheet.merged]

end

/-- The sheet with band `b` as the band of row `n` (R65). -/
def Sheet.placeBand (sh : Sheet) (n b : Nat) : Sheet :=
  { sh with bandMap := sh.bandMap.set (n / Config.bandRows) (some b) }

@[simp] theorem Sheet.placeBand_row (sh : Sheet) (n b i : Nat) : (sh.placeBand n b).row i = sh.row i := rfl

theorem Sheet.placeBand_of_bandOf {sh : Sheet} {n b : Nat} (h : sh.bandOf n = some b) : sh.placeBand n b = sh := by
  have hmap : sh.bandMap[n / Config.bandRows]? = some (some b) := Option.join_eq_some_iff.1 h
  obtain ⟨hlen, hget⟩ := List.getElem?_eq_some_iff.1 hmap
  rw [Sheet.placeBand, ← hget, List.set_getElem_self]

/-! ### The state after a merge -/

section
variable {s : State} {q : MergeRequest} {sh : Sheet}

theorem exec_mergeRequest_of_hand (hp : s.powered = true) (hhand : s.hand = some q) :
    exec .mergeRequest s = .next (({ s with hand := none } : State).takeMerge q) := by
  change execMergeRequest s = _
  simp only [execMergeRequest, State.live, hp, hhand, if_true]

/-- A request whose binding stands, on a FILLING sheet that it fits, is merged (R63). -/
theorem State.takeMerge_of_bound {k : Nat} {rec : Reception} (hfind : s.findRec q.record.reception = some k)
    (hrec : s.reception k = some rec) (hbind : rec.binding = some q.entry) (hsheet : s.sheet q.entry = some sh)
    (hfits : sh.state = .filling ∧ q.record.row < sh.height ∧ q.record.width = sh.width) :
    s.takeMerge q = s.mergeInto q sh := by
  simp [State.takeMerge, State.mergeBound, hfind, hrec, hbind, hsheet, hfits]

/-- With no span to store a merge does nothing. -/
theorem State.mergeInto_of_none (h : (storedSpans q.qmin q.margin q.record.quals (sh.row q.record.row)).any id ≠ true) :
    s.mergeInto q sh = s := if_neg h

theorem State.sheet_writeRecord (s : State) (r : LineRecord) (i band : Nat) (store : List Bool) (j : Nat) :
    (s.writeRecord r i band store).sheet j = if i = j then (s.sheet j).map (·.merged r store) else s.sheet j :=
  s.sheet_updSheet i j _

/-- A merge with a span to store writes the record, the sheet first given the lowest free band where the row has no band
(R65, R85). -/
theorem State.mergeInto_of_band {b : Nat} (hsheet : s.sheet q.entry = some sh)
    (h : (storedSpans q.qmin q.margin q.record.quals (sh.row q.record.row)).any id = true)
    (hb : sh.bandOf q.record.row = some b ∨ sh.bandOf q.record.row = none ∧ s.freeBands.head? = some b) :
    ∃ s₀ : State, s.mergeInto q sh =
        s₀.writeRecord q.record q.entry b (storedSpans q.qmin q.margin q.record.quals (sh.row q.record.row)) ∧
      s₀ = { s with
        dir := s₀.dir
        freeBands := if sh.bandOf q.record.row = none then s.freeBands.tail else s.freeBands } ∧
      s₀.sheet q.entry = some (sh.placeBand q.record.row b) ∧ ∀ i, i ≠ q.entry → s₀.sheet i = s.sheet i := by
  rcases hb with hband | ⟨hnone, hfree⟩
  · refine ⟨s, ?_, by simp [hband], by rw [Sheet.placeBand_of_bandOf hband, hsheet], fun i _ => rfl⟩
    simp [State.mergeInto, h, hband]
  · obtain ⟨rest, hrest⟩ := List.head?_eq_some_iff.1 hfree
    refine ⟨({ s with freeBands := rest }).updSheet q.entry fun x => x.placeBand q.record.row b, ?_, ?_, ?_, ?_⟩
    · simp [State.mergeInto, h, hnone, State.allocateBand, State.takeBand, hrest, Sheet.placeBand]
    · simp [hnone, hrest, State.updSheet]
    · rw [State.sheet_updSheet, if_pos rfl]
      exact congrArg (Option.map _) hsheet
    · intro i hi
      rw [State.sheet_updSheet, if_neg hi.symm]
      rfl

end

/-- Settles O27: the record is written into the row's band, and each part of the next state is read off that write. -/
theorem mergeWritesTheBetterSpans : Obligations.MergeWritesTheBetterSpans := by
  intro s q sh hp hhand ⟨k, rec, hfind, hrec, hbind⟩ hsheet ⟨hheight, _⟩ hfill hrow hwidth hquals hspans hgrays hw seq old store
  have hexec : exec .mergeRequest s = .next (({ s with hand := none } : State).mergeInto q sh) :=
    (exec_mergeRequest_of_hand hp hhand).trans
      (congrArg _ (State.takeMerge_of_bound hfind hrec hbind hsheet ⟨hfill, hrow, hwidth⟩))
  have hany : (storedSpans q.qmin q.margin q.record.quals old).any id = true ↔ ∃ k, k < 8 ∧ store k :=
    any_storedSpans_iff hspans
  rw [hexec]
  refine ⟨fun hnone => congrArg _ (State.mergeInto_of_none fun h => ?_), fun b ⟨hsome, hb⟩ => ?_⟩
  · obtain ⟨j, hj, hst⟩ := hany.1 h
    exact hnone j hj hst
  obtain ⟨s₀, hmerge, hs₀, hself, hother⟩ :=
    State.mergeInto_of_band (s := { s with hand := none }) hsheet (hany.2 hsome) hb
  generalize hbits : storedSpans q.qmin q.margin q.record.quals (sh.row q.record.row) = bits at hmerge
  have hstore : ∀ j, bits[j]? = some true ↔ j < 8 ∧ store j := hbits ▸ getElem?_storedSpans_iff hspans
  have hmem : s₀.mem = s.mem := by rw [hs₀]
  have h16 : 16 ∣ q.record.width := by omega
  have hrow_after := (sh.placeBand q.record.row b).merged_row_self bits (r := q.record) (Nat.lt_of_lt_of_eq hrow hheight.symm)
  refine ⟨s₀.writeRecord q.record q.entry b bits, (sh.placeBand q.record.row b).merged q.record bits, congrArg _ hmerge,
    ?sheet, ?state, ?others, ?new, ?sequence, fun n => Sheet.merged_row_ne _ bits, fun j hj => ⟨fun hst => ?stored,
    fun hst => ?kept⟩, fun j i hj hst hi => ?written, fun x hx => ?unwritten⟩
  case sheet => rw [State.sheet_writeRecord, if_pos rfl, hself]; rfl
  case state => rw [hs₀]; rfl
  case others =>
    intro i hi
    rw [State.sheet_writeRecord, if_neg hi.symm, hother i hi]
    rfl
  case new =>
    rw [show seq = countUp sh.seq from (countUp_eq_ite _).symm]
    exact Sheet.merged_eq ..
  case sequence => rw [hrow_after]; exact countUp_eq_ite _
  case stored =>
    have ⟨g, hg, _⟩ := hst
    rw [hrow_after]
    exact ⟨g, hg, getElem?_writeSpans_stored _ ((hstore j).2 ⟨hj, hst⟩) hg (Nat.lt_of_lt_of_eq hj hspans.symm)⟩
  case kept =>
    rw [hrow_after]
    exact getElem?_writeSpans_kept _ _ _ fun hbit => hst ((hstore j).1 hbit).2
  case written =>
    rw [← hwidth] at hi ⊢
    exact writeElements_read_stored h16 (hgrays.trans hwidth.symm) b s₀.mem ((hstore j).2 ⟨hj, hst⟩) hj hi
  case unwritten =>
    refine (writeElements_read_outside h16 b bits 0 s₀.mem fun j i hbit hi => ?_).trans (congrArg (·.read x) hmem)
    obtain ⟨hj, hst⟩ := (hstore j).1 hbit
    rw [Nat.zero_add]
    rw [hwidth] at hi ⊢
    exact hx j i hj hst hi

end Sys2Proof.Machine
end
